-- ==== Sys2Proof/Word.lean ====
section
/-!
DEFINITION. The value types of the block, one name per width of 10_state.md R20 and 20_memory.md R60.
Every value is unsigned and bit 0 is the least significant bit (00_scope.md R8).
-/

namespace Sys2Proof

/-- A 16-bit value: compare counts, counters, `BEAT_PERIOD`, the read views and `RDATA` (`CMP_W` = 16, R19). -/
abbrev Word := BitVec 16

/-- A key code, 0..15, one bit per physical key, bit = 1 means pressed (R6). -/
abbrev KeyCode := BitVec 4

/-- The levels of the four key input lines, 1 = high = unpressed (R29). -/
abbrev Lines := BitVec 4

/-- The 4-bit `ARG` field of a command word (R91). -/
abbrev Arg := BitVec 4

/-- A Note word: `code` in bits 11:8, `durationTicks` in bits 7:0 (R63). -/
abbrev Note := BitVec 12

/-- A duration in beat ticks (`DUR_W` = 8, R19). -/
abbrev Duration := BitVec 8

/-- An index into the sixteen entries of `NOTES` or `SCRIPT` (R30). -/
abbrev NoteIndex := BitVec 4

/-- The eight bits of the GPIO latch `LEDPORT` (R28). -/
abbrev Port := BitVec 8

/-- One pending flag per port bank (R35). -/
abbrev BankFlags := BitVec 3

/-- The 8-bit command word `CW` of the port `CMD` (R91). -/
abbrev CommandWord := BitVec 8

/-- The 2-bit event id `EVID` of an interrupt request line (R97). -/
abbrev EventId := BitVec 2

end Sys2Proof
end

