-- ==== Sys2Proof/Syntax.lean ====
section
/-!
DEFINITION. The operations of the block: one constructor per row of spec/opcode_table.json (30_encoding.md R93, R95, R97).
The bits of a command word that an operation ignores are kept, so that no bit of an encoding is dropped.
-/

namespace Sys2Proof

/-- The seven commands, the two rows of reserved command words, and the four event handlers. -/
inductive Instr where
  /-- `SETTONE k`, `OP` = 0x1 (R125). -/
  | setTone (k : KeyCode)
  /-- `SETLEDS k`, `OP` = 0x2 (R140). -/
  | setLeds (k : KeyCode)
  /-- `SCANKEYS`, `OP` = 0x3; `arg` is ignored (R96, R151). -/
  | scanKeys (arg : Arg)
  /-- `SEQSTART`, `OP` = 0x4; `arg` is ignored (R96, R167). -/
  | seqStart (arg : Arg)
  /-- `RDREG r`, `OP` = 0x5 (R190). -/
  | rdReg (r : Arg)
  /-- `RDNOTE i`, `OP` = 0x6 (R191). -/
  | rdNote (i : NoteIndex)
  /-- `RDFREQ k`, `OP` = 0x7 (R192). -/
  | rdFreq (k : KeyCode)
  /-- A reserved command word with `OP` = 0x0; `arg` is ignored (R95). -/
  | reservedOp0 (arg : Arg)
  /-- A reserved command word with `OP` = `op` in 0x8..0xF; `arg` is ignored (R95). -/
  | reservedOp8F (op : BitVec 4) (arg : Arg)
  /-- `KEYCHG 0`, event id 0 (R154). -/
  | keyChg0
  /-- `KEYCHG 1`, event id 1 (R154). -/
  | keyChg1
  /-- `KEYCHG 2`, event id 2 (R154). -/
  | keyChg2
  /-- `TICK`, event id 3 (R169). -/
  | tick
deriving DecidableEq, Repr

end Sys2Proof
end

