-- ==== Sys2Proof/WellFormed.lean ====
section
/-!
DEFINITION. Which terms of `Instr` stand for an encoding. The operand widths of 30_encoding.md R91 are in the types;
the one check left is that the reserved row `OP` = 0x8..0xF holds an opcode of that range (R95).
-/

namespace Sys2Proof

/-- The term has an encoding (R93, R95, R97). -/
def Instr.wellFormed (i : Instr) : Bool :=
  match i with
  | .setTone _ => true
  | .setLeds _ => true
  | .scanKeys _ => true
  | .seqStart _ => true
  | .rdReg _ => true
  | .rdNote _ => true
  | .rdFreq _ => true
  | .reservedOp0 _ => true
  | .reservedOp8F op _ => decide (8 ≤ op.toNat)
  | .keyChg0 => true
  | .keyChg1 => true
  | .keyChg2 => true
  | .tick => true

end Sys2Proof
end

