-- ==== Sys2Proof/Decode.lean ====
section
/-!
DEFINITION. Decoding and encoding. A command is one 8-bit word `CW` = {`OP`, `ARG`} (30_encoding.md R91, R98); an event is
named by its 2-bit id (R97) and appears on no port. Decoding is total: the reserved words have rows of their own (R95).
-/

namespace Sys2Proof

/-- A row of the opcode table: the seven commands, the two reserved rows, the four events (R93, R97). -/
inductive OpcodeRow where
  | setTone | setLeds | scanKeys | seqStart | rdReg | rdNote | rdFreq | reservedOp0 | reservedOp8F
  | keyChg0 | keyChg1 | keyChg2 | tick
deriving DecidableEq, Repr

/-- An encoded operation: a command word, or the id of an event. -/
inductive Code where
  | command (cw : CommandWord)
  | event (ev : EventId)
deriving DecidableEq, Repr

/-- Why a string of bits is no operation of the block. -/
inductive DecodeError where
  /-- Neither the 8 bits of a command nor the 2 bits of an event id (R97, R98). -/
  | badLength (nbits : Nat)
  /-- The value has a bit above the length given for it. -/
  | valueTooWide (nbits w : Nat)
  /-- There is no command word left to decode. -/
  | endOfStream
deriving DecidableEq, Repr

/-- The row's name in the opcode table. -/
def OpcodeRow.mnemonic (r : OpcodeRow) : String :=
  match r with
  | .setTone => "SETTONE"
  | .setLeds => "SETLEDS"
  | .scanKeys => "SCANKEYS"
  | .seqStart => "SEQSTART"
  | .rdReg => "RDREG"
  | .rdNote => "RDNOTE"
  | .rdFreq => "RDFREQ"
  | .reservedOp0 => "RESERVED_OP0"
  | .reservedOp8F => "RESERVED_OP8_F"
  | .keyChg0 => "KEYCHG0"
  | .keyChg1 => "KEYCHG1"
  | .keyChg2 => "KEYCHG2"
  | .tick => "TICK"

/-- `match` and `mask` of a command row over the 8-bit word (R93); no pair for an event row. -/
def OpcodeRow.matchMask (r : OpcodeRow) : Option (CommandWord × CommandWord) :=
  match r with
  | .setTone => some (0x10#8, 0xF0#8)
  | .setLeds => some (0x20#8, 0xF0#8)
  | .scanKeys => some (0x30#8, 0xF0#8)
  | .seqStart => some (0x40#8, 0xF0#8)
  | .rdReg => some (0x50#8, 0xF0#8)
  | .rdNote => some (0x60#8, 0xF0#8)
  | .rdFreq => some (0x70#8, 0xF0#8)
  | .reservedOp0 => some (0x00#8, 0xF0#8)
  | .reservedOp8F => some (0x80#8, 0x80#8)
  | .keyChg0 => none
  | .keyChg1 => none
  | .keyChg2 => none
  | .tick => none

/-- The command row selects the word: `w & mask = match` (R93). -/
def OpcodeRow.selects (r : OpcodeRow) (w : CommandWord) : Bool :=
  match r.matchMask with
  | some (m, mask) => w &&& mask == m
  | none => false

/-- The event id of an event row (R97). -/
def OpcodeRow.eventId (r : OpcodeRow) : Option EventId :=
  match r with
  | .keyChg0 => some 0b00#2
  | .keyChg1 => some 0b01#2
  | .keyChg2 => some 0b10#2
  | .tick => some 0b11#2
  | .setTone => none
  | .setLeds => none
  | .scanKeys => none
  | .seqStart => none
  | .rdReg => none
  | .rdNote => none
  | .rdFreq => none
  | .reservedOp0 => none
  | .reservedOp8F => none

/-- The row admits the encoding: it selects the command word, or it names the event (R93, R97). -/
def OpcodeRow.admits (r : OpcodeRow) (c : Code) : Bool :=
  match c with
  | .command cw => r.selects cw
  | .event ev => r.eventId == some ev

/-- The rows of the table, in its order. -/
def opcodeRows : List OpcodeRow :=
  [.setTone, .setLeds, .scanKeys, .seqStart, .rdReg, .rdNote, .rdFreq, .reservedOp0, .reservedOp8F,
   .keyChg0, .keyChg1, .keyChg2, .tick]

/-- The row an operation belongs to. -/
def Instr.row (i : Instr) : OpcodeRow :=
  match i with
  | .setTone _ => .setTone
  | .setLeds _ => .setLeds
  | .scanKeys _ => .scanKeys
  | .seqStart _ => .seqStart
  | .rdReg _ => .rdReg
  | .rdNote _ => .rdNote
  | .rdFreq _ => .rdFreq
  | .reservedOp0 _ => .reservedOp0
  | .reservedOp8F _ _ => .reservedOp8F
  | .keyChg0 => .keyChg0
  | .keyChg1 => .keyChg1
  | .keyChg2 => .keyChg2
  | .tick => .tick

/-- `OP`, bits 7:4 of a command word (R91). -/
def opField (cw : CommandWord) : BitVec 4 := cw.extractLsb' 4 4

/-- `ARG`, bits 3:0 of a command word, used as it stands (R91, R92). -/
def argField (cw : CommandWord) : Arg := cw.extractLsb' 0 4

/-- The operation a command word selects (R93, R95). -/
def decodeCommand (cw : CommandWord) : Instr :=
  match (opField cw).toNat with
  | 0x0 => .reservedOp0 (argField cw)
  | 0x1 => .setTone (argField cw)
  | 0x2 => .setLeds (argField cw)
  | 0x3 => .scanKeys (argField cw)
  | 0x4 => .seqStart (argField cw)
  | 0x5 => .rdReg (argField cw)
  | 0x6 => .rdNote (argField cw)
  | 0x7 => .rdFreq (argField cw)
  | _ => .reservedOp8F (opField cw) (argField cw)

/-- The handler an event id names (R97). -/
def decodeEvent (ev : EventId) : Instr :=
  match ev.toNat with
  | 0 => .keyChg0
  | 1 => .keyChg1
  | 2 => .keyChg2
  | _ => .tick

/-- The operation an encoding stands for. -/
def decode (c : Code) : Instr :=
  match c with
  | .command cw => decodeCommand cw
  | .event ev => decodeEvent ev

/-- The next operation of a stream of command words, with the rest: every command is exactly 8 bits (R98). -/
def decodeBytes (bytes : List (BitVec 8)) : Except DecodeError (Instr × List (BitVec 8)) :=
  match bytes with
  | [] => .error .endOfStream
  | b :: rest => .ok (decodeCommand b, rest)

/-- The encoding of `nbits` bits with the value `w`: 8 bits are a command word, 2 bits an event id (R97, R98). -/
def codeOfBits (nbits w : Nat) : Except DecodeError Code :=
  if nbits = 8 then
    if w < 256 then .ok (.command (BitVec.ofNat 8 w)) else .error (.valueTooWide nbits w)
  else if nbits = 2 then
    if w < 4 then .ok (.event (BitVec.ofNat 2 w)) else .error (.valueTooWide nbits w)
  else .error (.badLength nbits)

/-- Total decoding of a string of bits, rejecting by name. -/
def decodeBits (nbits w : Nat) : Except DecodeError Instr :=
  match codeOfBits nbits w with
  | .ok c => .ok (decode c)
  | .error e => .error e

/-- The operation of a row of the opcode table: 8 bits for a `CMD8` row, 2 bits for an `EVENT` row. Log entry 6. -/
def decodeTableWord (nbits w : Nat) : Option Instr :=
  match decodeBits nbits w with
  | .ok i => some i
  | .error _ => none

/-- `CW` = {`OP`, `ARG`} (R91). -/
def commandWord (op : BitVec 4) (arg : Arg) : CommandWord := op ++ arg

/-- The encoding of an operation, from the opcode map of R93, R95 and the event ids of R97. -/
def encode (i : Instr) : Code :=
  match i with
  | .setTone k => .command (commandWord 0x1#4 k)
  | .setLeds k => .command (commandWord 0x2#4 k)
  | .scanKeys arg => .command (commandWord 0x3#4 arg)
  | .seqStart arg => .command (commandWord 0x4#4 arg)
  | .rdReg r => .command (commandWord 0x5#4 r)
  | .rdNote i => .command (commandWord 0x6#4 i)
  | .rdFreq k => .command (commandWord 0x7#4 k)
  | .reservedOp0 arg => .command (commandWord 0x0#4 arg)
  | .reservedOp8F op arg => .command (commandWord op arg)
  | .keyChg0 => .event 0b00#2
  | .keyChg1 => .event 0b01#2
  | .keyChg2 => .event 0b10#2
  | .tick => .event 0b11#2

end Sys2Proof
end

