-- ==== Sys2Proof/Config.lean ====
section
/-!
DEFINITION. The configuration record `Cfg` of 00_scope.md R19, the parameters that have one fixed value, the labels of
the agents' steps (R7, R100), and the values the spec leaves open as constants with no body.
-/

namespace Sys2Proof

/-- A frequency in hertz as an exact fraction: a note frequency `NOTE_HZ[k]` (R19). -/
structure Hertz where
  num : Nat
  den : Nat
deriving DecidableEq, Repr, Inhabited

/-- The OPEN parameters of R19. Their types carry the premises of R243 that are plain bounds: `FREQ` and
`BEAT_PERIOD` fit 16 bits, `KEY_BANK` maps into 0..2, `LED_MAP` into 0..7, `KEY_MAP` into 0..3. -/
structure Cfg where
  /-- `F_CLK`, the input clock, in whole hertz: R19 says only that it is in Hz. Enters no step rule. DESIGN CHOICE, log
  entry 24. -/
  fClk : Nat
  /-- `FREQ[0..13]`, the Frequency Table; entry 0 is unused by `SETTONE` (R61). -/
  freq : Vector Word 14
  /-- `NOTE_HZ[1..13]`, entry `k - 1` for note `k`; enters no step rule. DESIGN CHOICE of the type, log entry 8. -/
  noteHz : Vector Hertz 13
  /-- `SCRIPT[0..15]`, the compiled-in sequence (R62). -/
  script : Vector Note 16
  /-- `BEAT_PERIOD`, the document's `tickPeriodCount` (R173). -/
  beatPeriod : Word
  /-- `BPM`; used by no rule. DESIGN CHOICE of the type, log entry 19. -/
  bpm : Nat
  /-- `SUBDIV`; used by no rule. DESIGN CHOICE of the type, log entry 19. -/
  subdiv : Nat
  /-- `BEAT_PRESCALE`; used by no rule. DESIGN CHOICE of the type, log entry 19. -/
  beatPrescale : Nat
  /-- `KEY_MAP`: key-code bit `i` reads input line `KEY_MAP(i)` (R152). -/
  keyMap : Vector (Fin 4) 4
  /-- `KEY_BANK`: the request bank of input line `j` (R153). -/
  keyBank : Vector (Fin 3) 4
  /-- `LED_MAP`: the bit of `LEDPORT` that carries LED position `i` (R141). -/
  ledMap : Vector (Fin 8) 4
deriving DecidableEq, Repr, Inhabited

/-- The label of one step of one agent (R7, trace syntax of R100). -/
inductive AgentStep where
  /-- `HOST`: the command word `cw` is presented on `CMD` with `CMD_VALID` = 1. -/
  | host (cw : CommandWord)
  /-- `KEYS`: the environment moves the key lines to the levels `lines`. -/
  | keys (lines : Lines)
  /-- `ARB`: the arbiter delivers the request with event id `ev` (R97, R205). -/
  | arb (ev : EventId)
  /-- `TCLK`: one edge of the tone timer's clock. -/
  | tclk
  /-- `BCLK`: one edge of the beat timer's clock. -/
  | bclk
  /-- `RST`: reset is asserted (R240). -/
  | rst
deriving DecidableEq, Repr, Inhabited

namespace Config

/-- `N_KEYS` (R19). -/
def nKeys : Nat := 4

/-- `N_LEDS` (R19). -/
def nLeds : Nat := 4

/-- `K_MAX`, the largest key code that indexes a note (R19, R6). -/
def kMax : Nat := 13

/-- `N_FREQ` (R19). -/
def nFreq : Nat := 14

/-- `SEQ_CAP`, sentinel included (R19, R64). -/
def seqCap : Nat := 16

/-- `N_BANKS` (R19). -/
def nBanks : Nat := 3

/-- `CMP_W` (R19). -/
def cmpW : Nat := 16

/-- `DUR_W` (R19). -/
def durW : Nat := 8

/-- `TONE_PRESCALE` (R19). -/
def tonePrescale : Nat := 1

/-- `SPK_ACTIVE_LEVEL` (R19): the pad level the document calls "active" is 1. -/
def spkActiveLevel : Bool := true

/-- `KEY_LATCH_WHILE_MASKED` (R19): a key-line change made while `KEY_IE` = 0 sets its pending flag.
The spec fixes it and names the other value (U5). Log entry 9. -/
def keyLatchWhileMasked : Bool := true

/-- The card's configuration: OPEN in the spec (R19), so a constant that nothing can evaluate. DESIGN CHOICE, log entry 2. -/
opaque cfg : Cfg

/-- The levels of the key lines at power-on: an input, a free premise of the launch state (R29, U14). DESIGN CHOICE,
log entry 3. -/
opaque keyinAtLaunch : Lines

/-- Which agent's step comes when none is listed: the order is not fixed by any rule (R7, R208, U7). DESIGN CHOICE,
log entry 4. -/
opaque agentChoice : Nat → AgentStep

/-- What `RDATA` carries outside a `HOST` step: any value (R94, U15). DESIGN CHOICE, log entry 5. -/
opaque undrivenRdata : Nat → Word

end Config

end Sys2Proof
end

