-- ==== Sys2Proof/Machine/State.lean ====
section
/-!
DEFINITION. The state record of 10_state.md R20 as plain data, why a step can stop, and the reset state of R52.
-/

namespace Sys2Proof.Machine

/-- Why the machine stops with a fault. There is no constructor: the block raises no exception and has no fault
mechanism (R200), so no meaning raises one. Safe: nothing is claimed of a fault. Log entry 17. -/
inductive Fault
deriving DecidableEq, Repr

/-- Why the machine has no step. -/
inductive Refusal where
  /-- The arm of an operation that has no meaning yet. No arm of this model uses it. Safe. -/
  | notModelled (mnemonic : String)
  /-- Raised by `step` when the agent step listed next is not enabled (R7, R100, R204): the transition system has no
  such step. Safe: the run stops. DESIGN CHOICE, log entry 4. -/
  | notEnabled (a : AgentStep)
deriving DecidableEq, Repr

/-- The state of the block (R20), the configuration it carries unchanged (R39), and the model's own fields. -/
structure State where
  /-- The configuration: no step changes it (R39). DESIGN CHOICE, log entry 2. -/
  cfg : Cfg
  /-- `TONE_CMP`, the tone timer's compare count (R21). -/
  toneCmp : Word
  /-- `TONE_COM`, the output-compare toggle is connected to the speaker pin (R22). -/
  toneCom : Bool
  /-- `TONE_CS`, the tone timer's clock source: stopped or undivided (R23). -/
  toneCs : Bool
  /-- `SPK_ACT`, the speaker pin as `setPin` leaves it (R24). -/
  spkAct : Bool
  /-- `OC_LVL`, the output-compare flip-flop (R25). -/
  ocLvl : Bool
  /-- `TCNT`, the tone timer's counter (R26). -/
  tcnt : Word
  /-- `LEDPORT`, the GPIO output latch (R28). -/
  ledport : Port
  /-- `KEYIN`, the levels of the input lines, 1 = unpressed (R29). -/
  keyin : Lines
  /-- `KEY_IE`, the enable of the Key Scanner's interrupt source (R34). -/
  keyIe : Bool
  /-- `KEY_PEND`, one pending flag per bank (R35). -/
  keyPend : BankFlags
  /-- `BEAT_PEND`, a beat tick is requested (R36). -/
  beatPend : Bool
  /-- `PLAYING`, the sequencer's state: Idle or Playing (R32). -/
  playing : Bool
  /-- `SEQ_IDX`, the index of the note that sounds (R30). -/
  seqIdx : NoteIndex
  /-- `SEQ_REM`, the ticks left of it (R31). -/
  seqRem : Duration
  /-- `NOTES[0..15]`, the active sequence (R33). -/
  notes : Vector Note 16
  /-- `BEAT_RUN`, the beat timer runs (R37). -/
  beatRun : Bool
  /-- `BCNT`, the beat timer's counter (R38). -/
  bcnt : Word
  /-- The model's own: what the last step drove on the port `RDATA`, if it was a `HOST` step (R94). DESIGN CHOICE,
  log entry 5. -/
  rdata : Option Word
  /-- The model's own: the agents' steps that come next, in order (R7, R100). DESIGN CHOICE, log entry 4. -/
  inputs : List AgentStep
  /-- The model's own: the counter that the free values of `Config` are applied to. DESIGN CHOICE, log
  entries 4 and 5. -/
  freeCount : Nat
deriving DecidableEq, Repr

/-- The state after reset under a configuration and with given key lines (R52, R240): every field 0 but `KEY_IE`. The
model's own three fields start empty (DESIGN CHOICE, log entries 4 and 5); the rest is the spec's, log entry 12. -/
def State.resetWith (c : Cfg) (lines : Lines) : State where
  cfg := c
  toneCmp := 0x0000#16
  toneCom := false
  toneCs := false
  spkAct := false
  ocLvl := false
  tcnt := 0x0000#16
  ledport := 0x00#8
  keyin := lines
  keyIe := true
  keyPend := 0b000#3
  beatPend := false
  playing := false
  seqIdx := 0#4
  seqRem := 0x00#8
  notes := Vector.replicate 16 0x000#12
  beatRun := false
  bcnt := 0x0000#16
  rdata := none
  inputs := []
  freeCount := 0

/-- The machine right after reset (R52): the configuration and the key lines are the card's, which the spec leaves
open. -/
def State.reset : State := State.resetWith Config.cfg Config.keyinAtLaunch

end Sys2Proof.Machine
end

