-- ==== Sys2Proof/Machine/Operands.lean ====
section
/-!
DEFINITION. Bit helpers, the fields of a Note word (20_memory.md R63), reads of the address spaces (R60, R68; log entry
1) and the scan function (42_keys.md R150).
-/

namespace Sys2Proof.Machine

/-- `v` with bit `i` set to `b` (the assignment `v[i] <- b` of R14 and R153). -/
def setBit {w : Nat} (v : BitVec w) (i : Nat) (b : Bool) : BitVec w :=
  if b then v ||| BitVec.twoPow w i else v &&& ~~~ BitVec.twoPow w i

/-- `zext_16` (R8). -/
def zext16 {w : Nat} (v : BitVec w) : Word := v.setWidth 16

/-- `code(n)` = `n[11:8]` (R9, R63). -/
def noteCode (n : Note) : KeyCode := n.extractLsb' 8 4

/-- `dur(n)` = `n[7:0]` (R9, R63). -/
def noteDur (n : Note) : Duration := n.extractLsb' 0 8

/-- The Note word with the given fields, code high (R63). -/
def noteOf (code : KeyCode) (dur : Duration) : Note := code ++ dur

/-- A word is a sentinel exactly when its duration is 0, whatever its code is (R63). -/
def isSentinel (n : Note) : Bool := noteDur n == 0#8

/-- `MemRead(FREQ, k)`; an index above 13 cannot be formed (R61, R67, R68). -/
def memReadFreq (c : Cfg) (k : Fin 14) : Word := c.freq[k]

/-- `MemRead(SCRIPT, i)` (R68). -/
def memReadScript (c : Cfg) (i : NoteIndex) : Note := c.script[i.toNat]'i.isLt

/-- `MemRead(NOTES, i)` (R68). -/
def memReadNotes (s : State) (i : NoteIndex) : Note := s.notes[i.toNat]'i.isLt

/-- `MemWrite(NOTES, i, v)` on the buffer's entries (R9, R68). -/
def memWriteNotes (i : NoteIndex) (v : Note) (notes : Vector Note 16) : Vector Note 16 := notes.set i.toNat v i.isLt

/-- `scan(v)[i] = ~v[KEY_MAP(i)]` (R150). -/
def scanBit (c : Cfg) (v : Lines) (i : Fin 4) : Bool := ! v.getLsbD (c.keyMap[i]).val

/-- The key code of the line levels `v` under the configured wiring (R150). -/
def scan (c : Cfg) (v : Lines) : KeyCode :=
  BitVec.ofBool (scanBit c v 3) ++ BitVec.ofBool (scanBit c v 2) ++ BitVec.ofBool (scanBit c v 1)
    ++ BitVec.ofBool (scanBit c v 0)

end Sys2Proof.Machine
end

