-- ==== Sys2Proof/Machine/Flags.lean ====
section
/-!
DEFINITION. What the one-bit fields say together: the speaker pad (10_state.md R27), the speaker predicates
(40_tone.md R126), which requests are deliverable (60_exceptions.md R204), the owner of the outputs (R211), and the
read views of `RDREG` (10_state.md R40 to R49).
-/

namespace Sys2Proof.Machine

/-- The level of the speaker pad: the timer owns it while the toggle is connected (R27). -/
def spkPad (s : State) : Bool := if s.toneCom then s.ocLvl else s.spkAct

/-- The pad is at the level the document calls "active" (R27). -/
def spkPadActive (s : State) : Bool := spkPad s == Config.spkActiveLevel

/-- The level of pad `j` of the port `LEDPORT`: the pads follow the latch (R28). -/
def ledPad (s : State) (j : Fin 8) : Bool := s.ledport.getLsbD j.val

/-- The level of LED position `i` (R28, R140). -/
def ledLevel (s : State) (i : Fin 4) : Bool := ledPad s (s.cfg.ledMap[i])

/-- What the port `RDATA` carries after the last step: outside a `HOST` step any value (R94, U15). -/
def rdataPort (s : State) : Word := s.rdata.getD (Config.undrivenRdata s.freeCount)

/-- `SpeakerEnabled` (R126). -/
def speakerEnabled (s : State) : Bool := s.toneCom && s.toneCs && s.spkAct

/-- `SpeakerDisabled` (R126). -/
def speakerDisabled (s : State) : Bool := !s.toneCom && !s.toneCs && !s.spkAct

/-- `deliverable(KEYCHG b)` for event ids 0..2, `deliverable(TICK)` for event id 3 (R204). -/
def deliverable (ev : EventId) (s : State) : Bool :=
  if ev = 3#2 then s.beatPend else s.keyPend.getLsbD ev.toNat && s.keyIe

/-- The two paths that may drive the tone and LED outputs (R211). -/
inductive Owner where
  | keyPath
  | sequencer
deriving DecidableEq, Repr

/-- The owner of the outputs (R211, R213). -/
def owner (s : State) : Owner := if s.playing then .sequencer else .keyPath

/-- A field of a read view: the value with its bit 0 at bit `lo`; the other bits are 0. -/
def viewField {w : Nat} (v : BitVec w) (lo : Nat) : Word := zext16 v <<< lo

/-- A one-bit field of a read view, at bit `lo`. -/
def viewBit (b : Bool) (lo : Nat) : Word := viewField (BitVec.ofBool b) lo

/-- Register 1, `R_TONE_CTRL`: `TONE_COM`, `TONE_CS`, `SPK_ACT`, `OC_LVL`, `SPK` in bits 0 to 4 (R41). -/
def toneCtrlView (s : State) : Word :=
  viewBit s.toneCom 0 ||| viewBit s.toneCs 1 ||| viewBit s.spkAct 2 ||| viewBit s.ocLvl 3 ||| viewBit (spkPad s) 4

/-- Register 4, `R_KEYS`: `KEYIN` in bits 3:0, `scan(KEYIN)` in bits 7:4 (R44). -/
def keysView (s : State) : Word := viewField s.keyin 0 ||| viewField (scan s.cfg s.keyin) 4

/-- Register 5, `R_INT`: `KEY_IE` in bit 0, `KEY_PEND` in bits 3:1, `BEAT_PEND` in bit 4 (R45). -/
def intView (s : State) : Word := viewBit s.keyIe 0 ||| viewField s.keyPend 1 ||| viewBit s.beatPend 4

/-- Register 6, `R_SEQ`: `PLAYING` in bit 0, `BEAT_RUN` in bit 1, `SEQ_IDX` in bits 7:4, `SEQ_REM` in bits 15:8
(R46). -/
def seqView (s : State) : Word :=
  viewBit s.playing 0 ||| viewBit s.beatRun 1 ||| viewField s.seqIdx 4 ||| viewField s.seqRem 8

/-- `x[r]`, the 16-bit read view of register number `r`; the reserved numbers 9 to 15 read 0 (R9, R40 to R49). -/
def regView (s : State) (r : Arg) : Word :=
  match r.toNat with
  | 0 => s.toneCmp
  | 1 => toneCtrlView s
  | 2 => s.tcnt
  | 3 => zext16 s.ledport
  | 4 => keysView s
  | 5 => intView s
  | 6 => seqView s
  | 7 => s.bcnt
  | 8 => s.cfg.beatPeriod
  | _ => 0x0000#16

end Sys2Proof.Machine
end

