-- ==== Sys2Proof/Machine/Ops.lean ====
section
/-!
DEFINITION. The primitives of the document's hardware abstraction (00_scope.md R10 to R17), the two output operations
that commands and handlers share (40_tone.md R125, 41_led.md R140), and entry to and return from an interrupt handler
(60_exceptions.md R205, R206).
-/

namespace Sys2Proof.Machine

/-- The two timers of R214. -/
inductive Timer where
  | tone
  | beat
deriving DecidableEq, Repr

/-- The output pins that `setPin` drives (R14). -/
inductive Pin where
  | spk
  | led (i : Fin 4)
deriving DecidableEq, Repr

/-- `setCompareValue(TONE, c)`: `TCNT` is not cleared (R10). -/
def setCompareValue (c : Word) (s : State) : State := { s with toneCmp := c }

/-- `connectOutputToggle(TONE)`: `OC_LVL` is not changed (R11). -/
def connectOutputToggle (s : State) : State := { s with toneCom := true }

/-- `disconnectOutputToggle(TONE)`: `OC_LVL` is not changed (R11). -/
def disconnectOutputToggle (s : State) : State := { s with toneCom := false }

/-- `startTimer(TONE, 1)` and `startTimer(BEAT, fixed prescale)`, which also clears `BCNT` (R12, R13). -/
def startTimer (t : Timer) (s : State) : State :=
  match t with
  | .tone => { s with toneCs := true }
  | .beat => { s with bcnt := 0x0000#16, beatRun := true }

/-- `stopTimer(TONE)` and `stopTimer(BEAT)` (R12, R13). -/
def stopTimer (t : Timer) (s : State) : State :=
  match t with
  | .tone => { s with toneCs := false }
  | .beat => { s with beatRun := false }

/-- `LEDPORT[LED_MAP(i)] <- level`, the other bits unchanged (R14). -/
def writeLed (c : Cfg) (i : Fin 4) (level : Bool) (port : Port) : Port := setBit port (c.ledMap[i]).val level

/-- `setPin(SPK, level)` and `setPin(LED_i, level)` (R14). -/
def setPin (p : Pin) (level : Bool) (s : State) : State :=
  match p with
  | .spk => { s with spkAct := level }
  | .led i => { s with ledport := writeLed s.cfg i level s.ledport }

/-- `disableInterruptSource(KEY)`: `KEY_PEND` is not changed (R15). -/
def disableKeyInterrupt (s : State) : State := { s with keyIe := false }

/-- `enableInterruptSource(KEY)`: `KEY_PEND` is not changed (R15). -/
def enableKeyInterrupt (s : State) : State := { s with keyIe := true }

/-- `configureToneTimer()`, `configureBeatTimer(tickPeriodCount)`, `configurePinDirection(pin, mode)` and handler
registration have no effect on the state (R16). -/
def configureHardware (s : State) : State := s

/-- `enterLowPowerSleep()` has no effect on the state (R17, R222). -/
def enterLowPowerSleep (s : State) : State := s

/-- `SETTONE k` on the state: silence for 0, a note for 1..13, nothing for 14 and 15 (R125). -/
def setTone (k : KeyCode) (s : State) : State :=
  if k = 0#4 then
    setPin .spk false (stopTimer .tone (disconnectOutputToggle s))
  else if h : k.toNat ≤ Config.kMax then
    setPin .spk true (startTimer .tone (connectOutputToggle
      (setCompareValue (memReadFreq s.cfg ⟨k.toNat, Nat.lt_succ_of_le h⟩) s)))
  else s

/-- The router: `setPin(LED_i, k[i])` for `i` in 0, 1, 2, 3, on the port (R140, R141). -/
def routeLeds (c : Cfg) (k : KeyCode) (port : Port) : Port :=
  writeLed c 3 (k.getLsbD 3) (writeLed c 2 (k.getLsbD 2) (writeLed c 1 (k.getLsbD 1) (writeLed c 0 (k.getLsbD 0) port)))

/-- `SETLEDS k` on the state: LED position `i` takes bit `i` of the code, for all sixteen codes (R140). -/
def setLeds (k : KeyCode) (s : State) : State := { s with ledport := routeLeds s.cfg k s.ledport }

/-- `return v`: the command drives `v` on `RDATA` in its own step (R9, R94). -/
def driveRdata (v : Word) (s : State) : State := { s with rdata := some v }

/-- Entry to a handler: the request's pending flag is cleared; nothing is saved, no mode and no mask changes
(R205). -/
def enterHandler (ev : EventId) (s : State) : State :=
  if ev = 3#2 then { s with beatPend := false } else { s with keyPend := setBit s.keyPend ev.toNat false }

/-- Return from a handler: there is nothing to restore and no mask changes (R206). -/
def returnFromHandler (s : State) : State := s

end Sys2Proof.Machine
end

