-- ==== Sys2Proof/Machine/Keys.lean ====
section
/-!
DEFINITION. The Key Scanner and the Key-Change Dispatcher: the command `SCANKEYS` (42_keys.md R151), the environment's
step `KEYS` (R153) and the handlers `KEYCHG b` (R154).
-/

namespace Sys2Proof.Machine

/-- `SCANKEYS` (R151): the code of the lines as they are at the step; `arg` is ignored (R96). -/
def execScanKeys (_arg : Arg) (s : State) : Host.Outcome State Fault Refusal :=
  .next (driveRdata (zext16 (scan s.cfg s.keyin)) s)

/-- The pending flag that the move of line `j` to its level in `lines` sets: on either edge, and whether or not the
source is masked (R153, `KEY_LATCH_WHILE_MASKED`). -/
def noteLineChange (lines : Lines) (j : Fin 4) (s : State) : State :=
  if lines.getLsbD j.val != s.keyin.getLsbD j.val && (Config.keyLatchWhileMasked || s.keyIe) then
    { s with keyPend := setBit s.keyPend (s.cfg.keyBank[j]).val true }
  else s

/-- `KEYS lines`: every changed line sets its bank's flag, then `KEYIN` takes the new levels (R153). -/
def moveKeys (lines : Lines) (s : State) : State :=
  { noteLineChange lines 3 (noteLineChange lines 2 (noteLineChange lines 1 (noteLineChange lines 0 s))) with
    keyin := lines }

/-- The dispatcher's effect: the tone, then the LEDs, of the code the lines have at delivery (R154). -/
def dispatchKeys (s : State) : State :=
  setLeds (scan s.cfg s.keyin) (setTone (scan s.cfg s.keyin) s)

/-- `KEYCHG b`: the same handler for each bank; `b` selects only the flag that is cleared (R154, R205, R206). -/
def keyChange (ev : EventId) (s : State) : State := returnFromHandler (dispatchKeys (enterHandler ev s))

/-- `KEYCHG 0` (R154). -/
def execKeyChg0 (s : State) : Host.Outcome State Fault Refusal := .next (keyChange 0b00#2 s)

/-- `KEYCHG 1` (R154). -/
def execKeyChg1 (s : State) : Host.Outcome State Fault Refusal := .next (keyChange 0b01#2 s)

/-- `KEYCHG 2` (R154). -/
def execKeyChg2 (s : State) : Host.Outcome State Fault Refusal := .next (keyChange 0b10#2 s)

end Sys2Proof.Machine
end

