-- ==== Sys2Proof/Machine/Led.lean ====
section
/-!
DEFINITION. The LED Display: the command `SETLEDS` (41_led.md R140).
-/

namespace Sys2Proof.Machine

/-- `SETLEDS k` (R140); `RDATA` = 0x0000. -/
def execSetLeds (k : KeyCode) (s : State) : Host.Outcome State Fault Refusal :=
  .next (driveRdata 0x0000#16 (setLeds k s))

end Sys2Proof.Machine
end

