-- ==== Sys2Proof/Machine/Readback.lean ====
section
/-!
DEFINITION. The observation commands `RDREG`, `RDNOTE`, `RDFREQ` (44_readback.md R190 to R192): they drive `RDATA` and
change no state of the block.
-/

namespace Sys2Proof.Machine

/-- `RDREG r` (R190). -/
def execRdReg (r : Arg) (s : State) : Host.Outcome State Fault Refusal := .next (driveRdata (regView s r) s)

/-- `RDNOTE i` (R191). -/
def execRdNote (i : NoteIndex) (s : State) : Host.Outcome State Fault Refusal :=
  .next (driveRdata (zext16 (memReadNotes s i)) s)

/-- Entry `k` of the Frequency Table; there is no entry 14 or 15, and they read 0 (R192). -/
def freqView (c : Cfg) (k : KeyCode) : Word :=
  if h : k.toNat ≤ Config.kMax then memReadFreq c ⟨k.toNat, Nat.lt_succ_of_le h⟩ else 0x0000#16

/-- `RDFREQ k` (R192). -/
def execRdFreq (k : KeyCode) (s : State) : Host.Outcome State Fault Refusal := .next (driveRdata (freqView s.cfg k) s)

end Sys2Proof.Machine
end

