-- ==== Sys2Proof/Machine/Reserved.lean ====
section
/-!
DEFINITION. The reserved command words: no state change, `RDATA` = 0x0000, and nothing is raised (30_encoding.md R95).
-/

namespace Sys2Proof.Machine

/-- A command word with `OP` = 0x0 (R95). Log entry 13. -/
def execReservedOp0 (_arg : Arg) (s : State) : Host.Outcome State Fault Refusal := .next (driveRdata 0x0000#16 s)

/-- A command word with `OP` in 0x8..0xF (R95). -/
def execReservedOp8F (_op : BitVec 4) (_arg : Arg) (s : State) : Host.Outcome State Fault Refusal :=
  .next (driveRdata 0x0000#16 s)

end Sys2Proof.Machine
end

