-- ==== Sys2Proof/Machine/Sequencer.lean ====
section
/-!
DEFINITION. The Note Sequencer: the command `SEQSTART` (43_sequencer.md R167, R168), the handler `TICK` (R169, R170) and
the beat timer's clock edge (R175).
-/

namespace Sys2Proof.Machine

/-- The copy loop of R168 over the last `n` entries: entry `16 - n` first; `ended` says that a sentinel was seen. -/
def copyEntries (c : Cfg) : Nat → Bool → Vector Note 16 → Vector Note 16
  | 0, _, notes => notes
  | n + 1, ended, notes =>
    let i := BitVec.ofNat 4 (15 - n)
    let ended := ended || isSentinel (memReadScript c i)
    copyEntries c n ended (memWriteNotes i (if ended then 0x000#12 else memReadScript c i) notes)

/-- Copy `SCRIPT` into `NOTES`: up to the first sentinel, and 0x000 from there to the end (R168). -/
def copyScript (s : State) : State := { s with notes := copyEntries s.cfg 16 false s.notes }

/-- `SEQSTART` when it is accepted, in the order of R167. -/
def startPlayback (s : State) : State :=
  let s := copyScript (disableKeyInterrupt s)
  let first := memReadNotes s 0#4
  let s := { s with seqIdx := 0#4, seqRem := noteDur first }
  let s := startTimer .beat (setLeds (noteCode first) (setTone (noteCode first) s))
  { s with playing := true }

/-- `SEQSTART`: ignored while Playing and for an empty script (R167, R177 (b)). Log entry 11. -/
def seqStart (s : State) : State :=
  if s.playing then s
  else if isSentinel (memReadScript s.cfg 0#4) then s
  else startPlayback s

/-- `SEQSTART` (R167); `arg` is ignored (R96); `RDATA` = 0x0000. -/
def execSeqStart (_arg : Arg) (s : State) : Host.Outcome State Fault Refusal :=
  .next (driveRdata 0x0000#16 (seqStart s))

/-- Stopping, the terminal branch of `TICK`: outputs are cleared before the key interrupt is enabled again (R170). -/
def stopPlayback (s : State) : State :=
  { enableKeyInterrupt (setLeds 0#4 (setTone 0#4 (stopTimer .beat s))) with playing := false }

/-- The part of `TICK` that a note's last tick runs: advance the index modulo 16, then stop or sound the next note
(R169). -/
def advanceNote (s : State) : State :=
  let s := { s with seqRem := 0x00#8, seqIdx := s.seqIdx + 1#4 }
  let n := memReadNotes s s.seqIdx
  if isSentinel n then stopPlayback s
  else setLeds (noteCode n) (setTone (noteCode n) { s with seqRem := noteDur n })

/-- `TICK` after its request is acknowledged (R169). -/
def beatTick (s : State) : State :=
  if !s.playing then s
  else if 2#8 ≤ s.seqRem then { s with seqRem := s.seqRem - 1#8 }
  else advanceNote s

/-- `TICK` (R169, R205, R206). -/
def tick (s : State) : State := returnFromHandler (beatTick (enterHandler 0b11#2 s))

/-- `TICK` (R169). -/
def execTick (s : State) : Host.Outcome State Fault Refusal := .next (tick s)

/-- `BCLK`, one edge of the beat timer's clock (R175). -/
def bclk (s : State) : State :=
  if s.beatRun then
    if s.cfg.beatPeriod ≤ s.bcnt then { s with bcnt := 0x0000#16, beatPend := true }
    else { s with bcnt := s.bcnt + 1#16 }
  else s

end Sys2Proof.Machine
end

