-- ==== Sys2Proof/Machine/Tone.lean ====
section
/-!
DEFINITION. The Tone Synthesizer: the command `SETTONE` (40_tone.md R125) and the tone timer's clock edge (R128).
-/

namespace Sys2Proof.Machine

/-- `SETTONE k` (R125); `RDATA` = 0x0000. -/
def execSetTone (k : KeyCode) (s : State) : Host.Outcome State Fault Refusal :=
  .next (driveRdata 0x0000#16 (setTone k s))

/-- `TCLK`, one edge of the tone timer's clock (R128). -/
def tclk (s : State) : State :=
  if s.toneCs then
    if s.toneCmp ≤ s.tcnt then
      { s with tcnt := 0x0000#16, ocLvl := if s.toneCom then !s.ocLvl else s.ocLvl }
    else { s with tcnt := s.tcnt + 1#16 }
  else s

end Sys2Proof.Machine
end

