-- ==== Sys2Proof/Machine/Dispatch.lean ====
section
/-!
DEFINITION. The meaning of every operation: one arm per constructor of `Instr`.
-/

namespace Sys2Proof.Machine

def exec (i : Instr) (s : State) : Host.Outcome State Fault Refusal :=
  match i with
  | .setTone k => Sys2Proof.Machine.execSetTone k s
  | .setLeds k => Sys2Proof.Machine.execSetLeds k s
  | .scanKeys arg => Sys2Proof.Machine.execScanKeys arg s
  | .seqStart arg => Sys2Proof.Machine.execSeqStart arg s
  | .rdReg r => Sys2Proof.Machine.execRdReg r s
  | .rdNote idx => Sys2Proof.Machine.execRdNote idx s
  | .rdFreq k => Sys2Proof.Machine.execRdFreq k s
  | .reservedOp0 arg => Sys2Proof.Machine.execReservedOp0 arg s
  | .reservedOp8F op arg => Sys2Proof.Machine.execReservedOp8F op arg s
  | .keyChg0 => Sys2Proof.Machine.execKeyChg0 s
  | .keyChg1 => Sys2Proof.Machine.execKeyChg1 s
  | .keyChg2 => Sys2Proof.Machine.execKeyChg2 s
  | .tick => Sys2Proof.Machine.execTick s

end Sys2Proof.Machine
end

