-- ==== Sys2Proof/Machine/Agents.lean ====
section
/-!
DEFINITION. The agents' steps (00_scope.md R7): which are enabled, what each does, reset (70_reset_and_hazards.md R240),
and runs over a listed trace of labels (30_encoding.md R100).
-/

namespace Sys2Proof.Machine

/-- `RST`: every field but `KEYIN` takes its reset value; the configuration and the listed steps of the environment are
no fields of the block (R240, R52). Log entry 15. -/
def assertReset (s : State) : State :=
  { State.resetWith s.cfg s.keyin with inputs := s.inputs, freeCount := s.freeCount }

/-- The agent's step is enabled: `KEYS` changes some line (R153), `ARB` delivers a deliverable request (R204), `BCLK`
waits for a pending tick (R176), the others are always enabled (R7, R240). Log entries 10 and
16. -/
def stepEnabled (a : AgentStep) (s : State) : Bool :=
  match a with
  | .host _ => true
  | .keys lines => lines != s.keyin
  | .arb ev => deliverable ev s
  | .tclk => true
  | .bclk => !s.beatPend
  | .rst => true

/-- The effect of an enabled step: a command takes effect in its own step (R90), and an `ARB` step runs the hard-wired
handler of its request to completion (R205). Log entry 7. -/
def performAgent (a : AgentStep) (s : State) : Host.Outcome State Fault Refusal :=
  match a with
  | .host cw => exec (decodeCommand cw) s
  | .keys lines => .next (moveKeys lines s)
  | .arb ev => exec (decodeEvent ev) s
  | .tclk => .next (tclk s)
  | .bclk => .next (bclk s)
  | .rst => .next (assertReset s)

/-- What every step does beside its agent's effect: the list of coming steps is `rest`, `RDATA` is not driven unless the
step is a command (R94), and the free values move on. -/
def beginStep (rest : List AgentStep) (s : State) : State :=
  { s with inputs := rest, rdata := none, freeCount := s.freeCount + 1 }

/-- The step of a listed agent; where it is not enabled there is no such step (R100). DESIGN CHOICE, log entry 4. -/
def takeAgentStep (a : AgentStep) (rest : List AgentStep) (s : State) : Host.Outcome State Fault Refusal :=
  if stepEnabled a s then performAgent a (beginStep rest s) else .refused (.notEnabled a)

/-- With no step listed any agent may come next (R7, R208): a free choice; a choice that is not enabled passes.
DESIGN CHOICE, log entry 4. -/
def freeStep (s : State) : Host.Outcome State Fault Refusal :=
  if stepEnabled (Config.agentChoice s.freeCount) s then
    performAgent (Config.agentChoice s.freeCount) (beginStep [] s)
  else .next (beginStep [] s)

/-- A run over a trace of labels; it stops at the first label whose step is not enabled (R100). -/
def runTrace : List AgentStep → State → Host.Outcome State Fault Refusal
  | [], s => .next s
  | a :: rest, s =>
    match takeAgentStep a rest s with
    | .next s' => runTrace rest s'
    | .fault r => .fault r
    | .refused r => .refused r

end Sys2Proof.Machine
end

