-- ==== Sys2Proof/Machine/Step.lean ====
section
/-!
DEFINITION. One step of the block: the step of the agent that is listed next, or of any agent where none is listed
(00_scope.md R7).
-/

namespace Sys2Proof.Machine

/-- One atomic step of one agent (R7). -/
def step (s : State) : Host.Outcome State Fault Refusal :=
  match s.inputs with
  | a :: rest => takeAgentStep a rest s
  | [] => freeStep s

/-- The state with an operation of the opcode table placed so that the very next step runs it: an 8-bit word is listed
as the next `HOST` command; a 2-bit event id is listed as the next delivery, with its request pending and not masked
(R204). Log entry 6. -/
def State.withFetchWord (s : State) (nbits w : Nat) : State :=
  match codeOfBits nbits w with
  | .ok (.command cw) => { s with inputs := .host cw :: s.inputs }
  | .ok (.event ev) =>
    if ev = 0b11#2 then { s with inputs := .arb ev :: s.inputs, beatPend := true }
    else { s with inputs := .arb ev :: s.inputs, keyPend := setBit s.keyPend ev.toNat true, keyIe := true }
  | .error _ => s

end Sys2Proof.Machine
end

