-- ==== Sys2Proof/Machine/Assembly.lean ====
section
/-!
DEFINITION. The text forms of the spec: the command syntax of 30_encoding.md R99 and the trace syntax of R100, read and
written as lists of characters. Log entry 20.
-/

namespace Sys2Proof.Machine

/-- A line of text. -/
abbrev Text := List Char

/-- Why a line is no command or no trace line (R99). But for `operandOutOfRange` the kinds are the model's. DESIGN CHOICE, log
entry 20. -/
inductive AsmError where
  | emptyLine
  | unknownMnemonic
  | missingOperand
  | unexpectedOperand
  | badNumber
  /-- An operand outside 0..15 is an assembler error (R99). -/
  | operandOutOfRange
  | badTraceLine
deriving DecidableEq, Repr

/-- The words of a line, separated by one or more spaces. -/
def splitSpaces : Text → List Text
  | [] => []
  | c :: cs =>
    if c = ' ' then [] :: splitSpaces cs
    else
      match splitSpaces cs with
      | [] => [[c]]
      | w :: ws => (c :: w) :: ws

/-- The words of a line without the empty ones. DESIGN CHOICE, log entry 20. -/
def wordsOf (t : Text) : List Text := (splitSpaces t).filter fun w => !w.isEmpty

/-- The value of a digit in a base up to 16. -/
def digitValue (base : Nat) (c : Char) : Option Nat :=
  let v :=
    if '0' ≤ c ∧ c ≤ '9' then c.toNat - '0'.toNat
    else if 'a' ≤ c ∧ c ≤ 'f' then c.toNat - 'a'.toNat + 10
    else if 'A' ≤ c ∧ c ≤ 'F' then c.toNat - 'A'.toNat + 10
    else 16
  if v < base then some v else none

/-- The value of a string of digits, after the value `acc` of the digits already read. -/
def digitsValue (base : Nat) : Nat → Text → Option Nat
  | acc, [] => some acc
  | acc, c :: cs =>
    match digitValue base c with
    | some d => digitsValue base (acc * base + d) cs
    | none => none

/-- A number with at least one digit. -/
def numberValue (base : Nat) (t : Text) : Option Nat := if t.isEmpty then none else digitsValue base 0 t

/-- A decimal or `0x` hexadecimal number (R8, R99), with leading zeros and either case of the hexadecimal digits. DESIGN
CHOICE, log entry 20. -/
def readNumber (t : Text) : Option Nat :=
  match t with
  | '0' :: 'x' :: ds => numberValue 16 ds
  | _ => numberValue 10 t

/-- A `0b` binary number (R8, R100) of any number of digits. DESIGN CHOICE, log entry 20. -/
def readBinary (t : Text) : Option Nat :=
  match t with
  | '0' :: 'b' :: ds => numberValue 2 ds
  | _ => none

/-- The seven command rows of R93, which have a syntax (R99). -/
def commandRows : List OpcodeRow := [.setTone, .setLeds, .scanKeys, .seqStart, .rdReg, .rdNote, .rdFreq]

/-- The row whose mnemonic, in upper case, is the word (R99). -/
def rowOfMnemonic (w : Text) : Option OpcodeRow := commandRows.find? fun r => r.mnemonic.toList == w

/-- The operation of a command row with the operand given, if the row has one; a row without one takes `ARG` = 0 (R96,
R99). -/
def buildCommand (r : OpcodeRow) (operand : Option Nat) : Except AsmError Instr :=
  let withOperand (f : Arg → Instr) : Except AsmError Instr :=
    match operand with
    | none => .error .missingOperand
    | some n => if n < 16 then .ok (f (BitVec.ofNat 4 n)) else .error .operandOutOfRange
  let alone (i : Instr) : Except AsmError Instr :=
    match operand with
    | none => .ok i
    | some _ => .error .unexpectedOperand
  match r with
  | .setTone => withOperand .setTone
  | .setLeds => withOperand .setLeds
  | .scanKeys => alone (.scanKeys 0#4)
  | .seqStart => alone (.seqStart 0#4)
  | .rdReg => withOperand .rdReg
  | .rdNote => withOperand .rdNote
  | .rdFreq => withOperand .rdFreq
  | .reservedOp0 => .error .unknownMnemonic
  | .reservedOp8F => .error .unknownMnemonic
  | .keyChg0 => .error .unknownMnemonic
  | .keyChg1 => .error .unknownMnemonic
  | .keyChg2 => .error .unknownMnemonic
  | .tick => .error .unknownMnemonic

/-- The command that the words of a line spell: the mnemonic and at most one operand (R99). -/
def parseCommandWords (ws : List Text) : Except AsmError Instr :=
  match ws with
  | [] => .error .emptyLine
  | m :: operands =>
    match rowOfMnemonic m, operands with
    | none, _ => .error .unknownMnemonic
    | some r, [] => buildCommand r none
    | some r, [o] =>
      match readNumber o with
      | some n => buildCommand r (some n)
      | none => .error .badNumber
    | some _, _ :: _ :: _ => .error .unexpectedOperand

/-- The command that a line spells (R99). -/
def parseCommand (t : Text) : Except AsmError Instr := parseCommandWords (wordsOf t)

/-- A number 0..15 in decimal. -/
def decimalText (v : BitVec 4) : Text :=
  if v.toNat < 10 then [Char.ofNat ('0'.toNat + v.toNat)] else ['1', Char.ofNat ('0'.toNat + (v.toNat - 10))]

/-- The text of a command in the syntax of R99; reserved words and events have none. -/
def commandText (i : Instr) : Option Text :=
  match i with
  | .setTone k => some ("SETTONE ".toList ++ decimalText k)
  | .setLeds k => some ("SETLEDS ".toList ++ decimalText k)
  | .scanKeys _ => some "SCANKEYS".toList
  | .seqStart _ => some "SEQSTART".toList
  | .rdReg r => some ("RDREG ".toList ++ decimalText r)
  | .rdNote idx => some ("RDNOTE ".toList ++ decimalText idx)
  | .rdFreq k => some ("RDFREQ ".toList ++ decimalText k)
  | .reservedOp0 _ => none
  | .reservedOp8F _ _ => none
  | .keyChg0 => none
  | .keyChg1 => none
  | .keyChg2 => none
  | .tick => none

/-- The command word of an operation; an event has none (R97). -/
def commandWordOf (i : Instr) : Option CommandWord :=
  match encode i with
  | .command cw => some cw
  | .event _ => none

/-- The steps of a clock agent's line: the count `xN`, 1 if it is left out (R100). That `N` is decimal, and
that `x0` is no step, is DESIGN CHOICE, log entry 20. -/
def clockSteps (a : AgentStep) (operands : List Text) : Except AsmError (List AgentStep) :=
  match operands with
  | [] => .ok [a]
  | [('x' :: ds)] =>
    match numberValue 10 ds with
    | some n => .ok (List.replicate n a)
    | none => .error .badNumber
  | _ => .error .badTraceLine

/-- The steps of a `HOST` line (R100). -/
def hostSteps (ws : List Text) : Except AsmError (List AgentStep) :=
  match parseCommandWords ws with
  | .ok i =>
    match commandWordOf i with
    | some cw => .ok [.host cw]
    | none => .error .badTraceLine
  | .error e => .error e

/-- The step of a `KEYS` line: the new line levels in binary (R100). The rule does not say how many digits: any number of
them with a value below 16 is read, so `0b10` is `0b0010`. DESIGN CHOICE, log entry 20. -/
def keysSteps (ws : List Text) : Except AsmError (List AgentStep) :=
  match ws with
  | [v] =>
    match readBinary v with
    | some n => if n < 16 then .ok [.keys (BitVec.ofNat 4 n)] else .error .operandOutOfRange
    | none => .error .badNumber
  | _ => .error .badTraceLine

/-- The step of an `ARB` line: `KEYCHG b` with `b` in 0..2, or `TICK` (R100). That `b` is decimal or `0x` is DESIGN CHOICE, log
entry 20. -/
def arbSteps (ws : List Text) : Except AsmError (List AgentStep) :=
  match ws with
  | [h] => if h = "TICK".toList then .ok [.arb 0b11#2] else .error .badTraceLine
  | [h, b] =>
    if h = "KEYCHG".toList then
      match readNumber b with
      | some n => if n < 3 then .ok [.arb (BitVec.ofNat 2 n)] else .error .operandOutOfRange
      | none => .error .badNumber
    else .error .badTraceLine
  | _ => .error .badTraceLine

/-- The steps that a line of a trace stands for (R100). -/
def parseTraceLine (t : Text) : Except AsmError (List AgentStep) :=
  match wordsOf t with
  | [] => .error .emptyLine
  | agent :: ws =>
    if agent = "HOST".toList then hostSteps ws
    else if agent = "KEYS".toList then keysSteps ws
    else if agent = "ARB".toList then arbSteps ws
    else if agent = "TCLK".toList then clockSteps .tclk ws
    else if agent = "BCLK".toList then clockSteps .bclk ws
    else if agent = "RST".toList then
      if ws.isEmpty then .ok [.rst] else .error .badTraceLine
    else .error .badTraceLine

/-- A bit as a binary digit. -/
def bitText (b : Bool) : Char := if b then '1' else '0'

/-- The text of a label in the syntax of R100; a reserved command word has none. Four binary digits and no count: DESIGN
CHOICE, log entry 20. -/
def labelText (a : AgentStep) : Option Text :=
  match a with
  | .host cw =>
    match commandText (decodeCommand cw) with
    | some t => some ("HOST ".toList ++ t)
    | none => none
  | .keys v =>
    some ("KEYS 0b".toList ++
      [bitText (v.getLsbD 3), bitText (v.getLsbD 2), bitText (v.getLsbD 1), bitText (v.getLsbD 0)])
  | .arb ev => if ev = 0b11#2 then some "ARB TICK".toList else some ("ARB KEYCHG ".toList ++ decimalText (ev.setWidth 4))
  | .tclk => some "TCLK".toList
  | .bclk => some "BCLK".toList
  | .rst => some "RST".toList

end Sys2Proof.Machine
end

