-- ==== Sys2Proof/Machine/ClockFree.lean ====
section
/-!
DEFINITION. The block without clocks (60_exceptions.md R212): the abstraction that drops `TCLK`, `BCLK`, `TCNT`, `BCNT`,
`OC_LVL` and `BEAT_PEND` and lets `ARB TICK` be enabled exactly when `BEAT_RUN` = 1. `RDATA` is kept: every command drives
it as its rule says.
-/

namespace Sys2Proof.Machine

/-- Values for the fields that R212 drops. -/
structure Dropped where
  tcnt : Word
  bcnt : Word
  ocLvl : Bool
  beatPend : Bool
deriving DecidableEq, Repr

/-- What the clocked block has in the fields that R212 drops. -/
def droppedOf (s : State) : Dropped where
  tcnt := s.tcnt
  bcnt := s.bcnt
  ocLvl := s.ocLvl
  beatPend := s.beatPend

/-- The state with given values in the fields that R212 drops. -/
def withDropped (d : Dropped) (s : State) : State :=
  { s with tcnt := d.tcnt, bcnt := d.bcnt, ocLvl := d.ocLvl, beatPend := d.beatPend }

/-- The state with the fields that R212 drops, and the model's list and counter, at one fixed value. What the last command
drove on `RDATA` stays. -/
def forgetClocks (s : State) : State :=
  { s with tcnt := 0x0000#16, bcnt := 0x0000#16, ocLvl := false, beatPend := false, inputs := [], freeCount := 0 }

/-- The agents of R212 that can step: a tick may be delivered at any time while the beat timer runs. -/
def clockFreeEnabled (a : AgentStep) (s : State) : Bool :=
  match a with
  | .host _ => true
  | .keys lines => lines != s.keyin
  | .arb ev => if ev = 0b11#2 then s.beatRun else deliverable ev s
  | .tclk => false
  | .bclk => false
  | .rst => true

/-- A step of the block without clocks: the operation rules are unchanged (R212), and a command drives `RDATA`. The values
`d` are free: a read view that shows a dropped field shows any value there. DESIGN CHOICE, log entry 21. -/
def clockFreeStep (d : Dropped) (a : AgentStep) (s : State) : Host.Outcome State Fault Refusal :=
  if clockFreeEnabled a s then
    match performAgent a { withDropped d s with rdata := none } with
    | .next s' => .next (forgetClocks s')
    | .fault r => .fault r
    | .refused r => .refused r
  else .refused (.notEnabled a)

/-- A run of the block without clocks, with the free values of each of its steps. -/
def clockFreeRun : List (Dropped × AgentStep) → State → Host.Outcome State Fault Refusal
  | [], s => .next s
  | (d, a) :: rest, s =>
    match clockFreeStep d a s with
    | .next s' => clockFreeRun rest s'
    | .fault r => .fault r
    | .refused r => .refused r

/-- The label is an edge of one of the two clocks that R212 drops. -/
def isClockEdge (a : AgentStep) : Bool :=
  match a with
  | .host _ => false
  | .keys _ => false
  | .arb _ => false
  | .tclk => true
  | .bclk => true
  | .rst => false

end Sys2Proof.Machine
end

