-- ==== Sys2Proof/Machine/Premises.lean ====
section
/-!
DEFINITION. The premises on the configuration (70_reset_and_hazards.md R243), the document's formulas that constrain it
(40_tone.md R121, R124, 43_sequencer.md R173), the length of a playback (R171), and the reference configuration of the test
vectors (00_scope.md R19, 40_tone.md R123). No step rule uses any of them.
-/

namespace Sys2Proof.Machine

/-- `round(num / den)`, to the nearest integer with ties up: `floor(num / den + 1/2)` (R122). -/
def roundHalfUp (num den : Nat) : Nat := (2 * num + den) / (2 * den)

/-- Entry `k` of the Frequency Table, 1 ≤ `k` ≤ 13, is `round(F_CLK / (2 * TONE_PRESCALE * NOTE_HZ[k])) - 1` (R121),
`F_CLK` being a whole number of hertz and `NOTE_HZ[k]` a fraction. DESIGN CHOICE of both types, log entries 24 and 8. -/
abbrev FreqEntryOk (c : Cfg) (k : Fin 13) : Prop :=
  0 < (c.noteHz[k]).num ∧ 0 < (c.noteHz[k]).den ∧
    (memReadFreq c k.succ).toNat + 1 =
      roundHalfUp (c.fClk * (c.noteHz[k]).den) (2 * Config.tonePrescale * (c.noteHz[k]).num)

/-- R243 (a). -/
abbrev FreqOk (c : Cfg) : Prop := ∀ k : Fin 13, FreqEntryOk c k

/-- `NOTE_HZ[13]`, the document's A4 (R120). -/
def a4 (c : Cfg) : Hertz := c.noteHz[12]

/-- The notes ascend by a semitone, a factor of about 1.0595 (R120, R124): by 1.059 at least, which is all that R124 needs
of it. DEDUCED, log entry 23. -/
abbrev NotesAscend (c : Cfg) : Prop := ∀ k : Fin 12,
  1059 * (c.noteHz[k.val]).num * (c.noteHz[k.val + 1]).den ≤ 1000 * (c.noteHz[k.val + 1]).num * (c.noteHz[k.val]).den

/-- The Frequency Table is strictly descending over 1..13 (R124). -/
abbrev FreqDescends (c : Cfg) : Prop := ∀ j k : Fin 14, 1 ≤ j.val → j < k → memReadFreq c k < memReadFreq c j

/-- The index of the first sentinel of `SCRIPT`, 16 if there is none: `L` of R166. -/
def scriptLength (c : Cfg) : Nat := c.script.toList.findIdx isSentinel

/-- `SCRIPT_WF` (R166): some entry is a sentinel and the first is not. -/
abbrev ScriptWf (c : Cfg) : Prop := scriptLength c < 16 ∧ 0 < scriptLength c

/-- `KEY_MAP` is a permutation of 0..3 (R243 (c)). -/
abbrev KeyMapOk (c : Cfg) : Prop := ∀ i j : Fin 4, c.keyMap[i] = c.keyMap[j] → i = j

/-- `LED_MAP` is injective (R243 (c), R141). -/
abbrev LedMapOk (c : Cfg) : Prop := ∀ i j : Fin 4, c.ledMap[i] = c.ledMap[j] → i = j

/-- The premises of R243; (d) and the bounds of (a) and (c) are in the types of `Cfg`. -/
abbrev CfgOk (c : Cfg) : Prop := FreqOk c ∧ ScriptWf c ∧ KeyMapOk c ∧ LedMapOk c

/-- `dur(SCRIPT[0]) + ... + dur(SCRIPT[n-1])`, the tick deliveries before note `n` sounds (R171). -/
def ticksBefore (c : Cfg) (n : Nat) : Nat := ((c.script.toList.take n).map fun w => (noteDur w).toNat).sum

/-- `T` of R171: the number of the tick delivery that ends a playback. -/
def playbackTicks (c : Cfg) : Nat := ticksBefore c (scriptLength c)

/-- The document's `tickPeriodCount`, as an exact fraction: how it is rounded is not said and no rule evaluates it
(R173). Log entry 19. -/
def tickPeriodExact (c : Cfg) : Hertz where
  num := c.fClk * 60
  den := 2 * c.subdiv * (c.beatPrescale + 1) * c.bpm

/-- `f_tone = F_CLK / (2 * TONE_PRESCALE * (TONE_CMP + 1))` (R129). -/
def toneFrequency (s : State) : Hertz where
  num := s.cfg.fClk
  den := 2 * Config.tonePrescale * (s.toneCmp.toNat + 1)

/-- The two values of `KEY_MAP` that R152 names. -/
def keyMapDefault : Vector (Fin 4) 4 := #v[0, 1, 2, 3]

/-- `KEY_MAP(i) = 3 - i` (R152). -/
def keyMapReversed : Vector (Fin 4) 4 := #v[3, 2, 1, 0]

/-- The reference Frequency Table (R123). -/
def referenceFreq : Vector Word 14 :=
  #v[0x0000, 0x08E0, 0x0860, 0x07E8, 0x0776, 0x070B, 0x06A6, 0x0646, 0x05EC, 0x0597, 0x0546, 0x04FB, 0x04B3, 0x046F]

/-- The reference note frequencies, to the thousandth of a hertz that R123 prints. DESIGN CHOICE, log entry 8. -/
def referenceNoteHz : Vector Hertz 13 :=
  #v[⟨220000, 1000⟩, ⟨233082, 1000⟩, ⟨246942, 1000⟩, ⟨261626, 1000⟩, ⟨277183, 1000⟩, ⟨293665, 1000⟩, ⟨311127, 1000⟩,
     ⟨329628, 1000⟩, ⟨349228, 1000⟩, ⟨369994, 1000⟩, ⟨391995, 1000⟩, ⟨415305, 1000⟩, ⟨440000, 1000⟩]

/-- The reference configuration of 95_test_vectors.md; each test names its script. The three tempo parameters have no
reference value and enter no rule (R19): 0 stands for that. DESIGN CHOICE, log entry 19. -/
def referenceCfg (script : Vector Note 16) : Cfg where
  fClk := 1000000
  freq := referenceFreq
  noteHz := referenceNoteHz
  script := script
  beatPeriod := 0x00FF#16
  bpm := 0
  subdiv := 0
  beatPrescale := 0
  keyMap := keyMapDefault
  keyBank := #v[0, 0, 1, 2]
  ledMap := #v[0, 1, 2, 3]

end Sys2Proof.Machine
end

