-- ==== Sys2Proof/Safety.lean ====
section
/-!
DEFINITION. What the spec says of every state that can be reached: the invariants of 70_reset_and_hazards.md R257, in the
terms that statements use.
-/

namespace Sys2Proof.Machine

/-- The clauses (a) to (f), (h), (j) and (k) of R257 as far as they speak of one state, and what the copy of R168 leaves.
What (g), (i) and (k) say of the past is `PastInvariant`. -/
structure Invariant (s : State) : Prop where
  /-- (a) `KEY_IE = ~PLAYING` (R211). -/
  keyIe_eq : s.keyIe = !s.playing
  /-- (b) `BEAT_RUN = PLAYING`. -/
  beatRun_eq : s.beatRun = s.playing
  /-- (c) No tick is requested while Idle. -/
  beatPend_idle : s.playing = false → s.beatPend = false
  /-- (d) While Playing the current note has ticks left. -/
  rem_pos : s.playing = true → 1 ≤ s.seqRem.toNat
  /-- (d) While Playing the current entry is a note. -/
  note_sounds : s.playing = true → isSentinel (memReadNotes s s.seqIdx) = false
  /-- (d) While Playing the index is below the length of the script. -/
  idx_lt : s.playing = true → s.seqIdx.toNat < scriptLength s.cfg
  /-- (e) `TONE_COM = TONE_CS`. -/
  com_eq_cs : s.toneCom = s.toneCs
  /-- (e) `TONE_COM = SPK_ACT`. -/
  com_eq_act : s.toneCom = s.spkAct
  /-- (f) A compare count in use comes from the Frequency Table. -/
  cmp_from_table : s.toneCom = true → ∃ k : Fin 14, 1 ≤ k.val ∧ s.toneCmp = memReadFreq s.cfg k
  /-- (h) A bit of `LEDPORT` that carries no LED is 0. -/
  led_unrouted : ∀ j : Fin 8, (∀ i : Fin 4, s.cfg.ledMap[i] ≠ j) → s.ledport.getLsbD j.val = false
  /-- (j) `BCNT <= BEAT_PERIOD`. -/
  bcnt_le : s.bcnt ≤ s.cfg.beatPeriod
  /-- While Playing the buffer holds the script's notes: what the copy of R168 left and nothing has written since. -/
  notes_copied : s.playing = true →
    ∀ i : NoteIndex, i.toNat < scriptLength s.cfg → memReadNotes s i = memReadScript s.cfg i
  /-- (k) `NOTES[i] = 0x000` from the script's length on. -/
  notes_end : ∀ i : NoteIndex, scriptLength s.cfg ≤ i.toNat → memReadNotes s i = 0x000#12
  /-- (k) All entries are 0x000, as before the first playback, or the buffer holds the script's notes. -/
  notes_empty_or_copied : (∀ i : NoteIndex, memReadNotes s i = 0x000#12) ∨
    ∀ i : NoteIndex, i.toNat < scriptLength s.cfg → memReadNotes s i = memReadScript s.cfg i

/-- The code, at most 13, of the latest entry `j <= n` of `NOTES` that has such a code (R257 (g)). -/
def latestToneCode (s : State) : Nat → Option KeyCode
  | 0 => if (noteCode (memReadNotes s 0#4)).toNat ≤ Config.kMax then some (noteCode (memReadNotes s 0#4)) else none
  | n + 1 =>
    if (noteCode (memReadNotes s (BitVec.ofNat 4 (n + 1)))).toNat ≤ Config.kMax then
      some (noteCode (memReadNotes s (BitVec.ofNat 4 (n + 1))))
    else latestToneCode s n

/-- The four fields that `SETTONE` writes (R125). -/
structure ToneFields where
  toneCmp : Word
  toneCom : Bool
  toneCs : Bool
  spkAct : Bool
deriving DecidableEq, Repr

/-- The tone fields of a state. -/
def toneFields (s : State) : ToneFields where
  toneCmp := s.toneCmp
  toneCom := s.toneCom
  toneCs := s.toneCs
  spkAct := s.spkAct

/-- The state `s` with other tone fields. -/
def withToneFields (f : ToneFields) (s : State) : State :=
  { s with toneCmp := f.toneCmp, toneCom := f.toneCom, toneCs := f.toneCs, spkAct := f.spkAct }

/-- The tone fields that `SETTONE` of the codes of `NOTES[0..n]`, one after the other, leaves of `start`: a rest keeps the
compare count of the note before it, and a code above 13 keeps all of them (R125). -/
def toneLeftBy (s : State) (start : ToneFields) : Nat → ToneFields
  | 0 => toneFields (setTone (noteCode (memReadNotes s 0#4)) (withToneFields start s))
  | n + 1 =>
    toneFields (setTone (noteCode (memReadNotes s (BitVec.ofNat 4 (n + 1)))) (withToneFields (toneLeftBy s start n) s))

/-- Clause (g) of R257 for a playback whose `SEQSTART` found the tone fields at `start`: while Playing the LEDs show the
current note's code, and the tone fields, all four, are those that `SETTONE` of the notes up to the current one has left.
So `SETTONE` of the latest code at most 13 changes nothing of them, and they are those at `SEQSTART` if there is no such
code. What is said of `start` is said under `SCRIPT_WF`, the rule's premise: without a sentinel the index wraps. -/
structure SequencerOwnsOutputs (start : ToneFields) (s : State) : Prop where
  leds_show_note : s.playing = true → setLeds (noteCode (memReadNotes s s.seqIdx)) s = s
  tone_is_latest : s.playing = true → ∀ k, latestToneCode s s.seqIdx.toNat = some k → setTone k s = s
  tone_is_start : s.playing = true → ScriptWf s.cfg → latestToneCode s s.seqIdx.toNat = none → toneFields s = start
  tone_is_left : s.playing = true → ScriptWf s.cfg → toneFields s = toneLeftBy s start s.seqIdx.toNat

/-- The command word is a `SETTONE` or a `SETLEDS`, the commands that the proviso of R257 keeps out of playback
(R251). -/
def drivesOutputs (cw : CommandWord) : Bool :=
  match (decodeCommand cw).row with
  | .setTone => true
  | .setLeds => true
  | .scanKeys => false
  | .seqStart => false
  | .rdReg => false
  | .rdNote => false
  | .rdFreq => false
  | .reservedOp0 => false
  | .reservedOp8F => false
  | .keyChg0 => false
  | .keyChg1 => false
  | .keyChg2 => false
  | .tick => false

/-- The proviso of R257: the step is no `SETTONE` and no `SETLEDS` command issued while Playing. -/
def keepsHandsOff (a : AgentStep) (s : State) : Bool :=
  match a with
  | .host cw => !(s.playing && drivesOutputs cw)
  | .keys _ => true
  | .arb _ => true
  | .tclk => true
  | .bclk => true
  | .rst => true

/-- The proviso of R257 at every step of a run. -/
def runKeepsHandsOff : List AgentStep → State → Bool
  | [], _ => true
  | a :: rest, s =>
    keepsHandsOff a s &&
      match takeAgentStep a rest s with
      | .next t => runKeepsHandsOff rest t
      | .fault _ => true
      | .refused _ => true

/-- What the clauses (g), (i) and (k) of R257 say of the past. It is no state of the block: a run is accompanied by it. -/
structure Past where
  /-- The tone fields that the `SEQSTART` of the running playback found. -/
  toneAtStart : ToneFields
  /-- The largest value that `TONE_CMP` has held. -/
  highestCompare : Nat
  /-- A `SEQSTART` has been accepted since reset. -/
  copied : Bool
deriving DecidableEq, Repr

/-- The past where a run begins in a state in which no `SEQSTART` has been accepted yet. -/
def Past.start (s : State) : Past where
  toneAtStart := toneFields s
  highestCompare := s.toneCmp.toNat
  copied := false

/-- The past after the step of `a` from `s` to `t`: a `SEQSTART` is accepted exactly where the block goes from Idle to
Playing. -/
def Past.after (h : Past) (a : AgentStep) (s t : State) : Past where
  toneAtStart := if s.playing then h.toneAtStart else toneFields s
  highestCompare := max h.highestCompare t.toneCmp.toNat
  copied := !(a == .rst) && (h.copied || (!s.playing && t.playing))

/-- The past at the end of a run that begins in `s` with the past `h`. -/
def Past.along (h : Past) : List AgentStep → State → Past
  | [], _ => h
  | a :: rest, s =>
    match takeAgentStep a rest s with
    | .next t => Past.along (h.after a s t) rest t
    | .fault _ => h
    | .refused _ => h

/-- Clauses (i) and (k) of R257: `TCNT` is at most the largest value that `TONE_CMP` has held; `NOTES` holds the script's
notes and then 0x000 once a `SEQSTART` has been accepted, and 0x000 everywhere before. -/
structure PastInvariant (h : Past) (s : State) : Prop where
  tcnt_le : s.tcnt.toNat ≤ h.highestCompare
  cmp_le : s.toneCmp.toNat ≤ h.highestCompare
  notes_before : h.copied = false → ∀ i : NoteIndex, memReadNotes s i = 0x000#12
  notes_after : h.copied = true → ∀ i : NoteIndex,
    memReadNotes s i = if i.toNat < scriptLength s.cfg then memReadScript s.cfg i else 0x000#12

/-- `n` beat ticks handled one after the other (R171). -/
def afterTicks (n : Nat) (s : State) : State := Nat.iterate tick n s

end Sys2Proof.Machine
end

