-- ==== Sys2Proof/Certificates/Slice0/Obligations.lean ====
section
/-!
DEFINITION. The statements for the provers. Each docstring names the rules of spec/ that the statement rests on.
A state is written out as an update of the state before, so that everything an operation leaves alone is in its statement.
-/

open Sys2Proof Sys2Proof.Machine

/-! Encodings. -/

/-- 30_encoding.md R93, R95: a command word selects exactly the row whose `match` and `mask` it meets. -/
def Obligations.CommandWordSelectsExactlyItsRow : Prop :=
  ∀ (w : CommandWord) (r : OpcodeRow), r.selects w = true ↔ (decodeCommand w).row = r

/-- 30_encoding.md R91, R92, R96, R97: the encoding of every well-formed operation, at every value of its operands and of
the bits it ignores, decodes to that operation. -/
def Obligations.DecodeOfEncodeIsTheOperation : Prop :=
  ∀ i : Instr, i.wellFormed = true → decode (encode i) = i

/-- 30_encoding.md R91, R98: every command word and every event id decodes to a well-formed operation whose encoding it
is. -/
def Obligations.EncodeOfDecodeIsTheCode : Prop :=
  ∀ c : Code, (decode c).wellFormed = true ∧ encode (decode c) = c

/-- 30_encoding.md R93, R95, R97: words written out bit by bit, `OP` high, decode to the operations they stand for. -/
def Obligations.SampleWordsDecode : Prop :=
  decodeCommand 0b00010101#8 = .setTone 5#4 ∧ decodeCommand 0b00101010#8 = .setLeds 10#4 ∧
  decodeCommand 0b00110111#8 = .scanKeys 7#4 ∧ decodeCommand 0b01001011#8 = .seqStart 11#4 ∧
  decodeCommand 0b01010110#8 = .rdReg 6#4 ∧ decodeCommand 0b01100010#8 = .rdNote 2#4 ∧
  decodeCommand 0b01111101#8 = .rdFreq 13#4 ∧ decodeCommand 0b00001111#8 = .reservedOp0 15#4 ∧
  decodeCommand 0b10011010#8 = .reservedOp8F 9#4 10#4 ∧ decodeEvent 0b00#2 = .keyChg0 ∧
  decodeEvent 0b01#2 = .keyChg1 ∧ decodeEvent 0b10#2 = .keyChg2 ∧ decodeEvent 0b11#2 = .tick

/-- 30_encoding.md R99: the text of a command reads back as the command, `ARG` being 0 where it is ignored, and an operand
outside 0..15 is an assembler error. -/
def Obligations.CommandTextReadsBack : Prop :=
  (∀ i ∈ [Instr.scanKeys 0#4, Instr.seqStart 0#4],
    ∃ t, commandText i = some t ∧ parseCommand t = .ok i) ∧
  (∀ k : BitVec 4, ∀ i ∈ [Instr.setTone k, Instr.setLeds k, Instr.rdReg k, Instr.rdNote k, Instr.rdFreq k],
    ∃ t, commandText i = some t ∧ parseCommand t = .ok i) ∧
  (∀ n : Nat, 15 < n → ∀ r ∈ [OpcodeRow.setTone, .setLeds, .rdReg, .rdNote, .rdFreq],
    buildCommand r (some n) = .error .operandOutOfRange)

/-! A step. -/

/-- 00_scope.md R7, 30_encoding.md R90, R91: a step with a command word listed next runs the operation the word decodes
to, on the state with the word taken off the list; `RDATA` is not driven but by the operation (R94). -/
def Obligations.StepRunsTheDecodedCommand : Prop :=
  ∀ (s : State) (cw : CommandWord) (rest : List AgentStep), s.inputs = .host cw :: rest →
    step s = exec (decodeCommand cw) { s with inputs := rest, rdata := none, freeCount := s.freeCount + 1 }

/-- 60_exceptions.md R205: a step with a delivery listed next, whose request is deliverable, runs the handler that the
event id names. The list is the model's, log entry 4. -/
def Obligations.StepRunsTheDeliveredHandler : Prop :=
  ∀ (s : State) (ev : EventId) (rest : List AgentStep), s.inputs = .arb ev :: rest → deliverable ev s = true →
    step s = exec (decodeEvent ev) { s with inputs := rest, rdata := none, freeCount := s.freeCount + 1 }

/-- 60_exceptions.md R204: a request is deliverable when its flag is set and it is not masked, and the `ARB` agent's step is
enabled exactly when some request is deliverable. -/
def Obligations.DeliverableIsPendingAndNotMasked : Prop :=
  ∀ s : State,
    (∀ ev : EventId, ev.toNat < 3 → deliverable ev s = (s.keyPend.getLsbD ev.toNat && s.keyIe)) ∧
    deliverable 0b11#2 s = s.beatPend ∧
    ((∃ ev : EventId, stepEnabled (.arb ev) s = true) ↔
      (∃ b : Fin 3, s.keyPend.getLsbD b.val = true ∧ s.keyIe = true) ∨ s.beatPend = true)

/-- 00_scope.md R7: a step with an enabled agent's step listed next is that agent's step, on the state with it taken off the
list. The list is the model's, log entry 4. -/
def Obligations.StepRunsTheListedAgent : Prop :=
  ∀ (s : State) (a : AgentStep) (rest : List AgentStep), s.inputs = a :: rest → stepEnabled a s = true →
    step s = performAgent a { s with inputs := rest, rdata := none, freeCount := s.freeCount + 1 }

/-- 00_scope.md R7, 42_keys.md R153, 43_sequencer.md R176: the listed step of an agent is refused exactly when it is a
delivery of a request that is not deliverable, a `KEYS` step that moves no line, or a `BCLK` edge while a tick waits. -/
def Obligations.ListedStepIsRefusedExactlyWhenDisabled : Prop :=
  ∀ (s : State) (a : AgentStep) (rest : List AgentStep), s.inputs = a :: rest →
    ((∃ t, step s = .next t) ∨ step s = .refused (.notEnabled a)) ∧
    (step s = .refused (.notEnabled a) ↔
      (∃ ev, a = .arb ev ∧ deliverable ev s = false) ∨ a = .keys s.keyin ∨ (a = .bclk ∧ s.beatPend = true))

/-- 60_exceptions.md R200: no operation ever traps or stops: every one answers a next state, in every state. -/
def Obligations.EveryOperationCompletes : Prop :=
  ∀ (i : Instr) (s : State), ∃ t, exec i s = .next t

/-! The Tone Synthesizer. -/

/-- 40_tone.md R125: the encoding and the three branches of `SETTONE`, and that it writes nothing else. -/
def Obligations.SetToneFollowsItsThreeBranches : Prop :=
  (∀ k : KeyCode, decodeCommand (0x1#4 ++ k) = .setTone k) ∧
  (∀ s : State, exec (.setTone 0#4) s =
    .next { s with toneCom := false, toneCs := false, spkAct := false, rdata := some 0x0000#16 }) ∧
  (∀ (k : KeyCode) (s : State) (h : k.toNat < 14), 1 ≤ k.toNat → exec (.setTone k) s =
    .next { s with toneCmp := s.cfg.freq[k.toNat], toneCom := true, toneCs := true, spkAct := true,
                   rdata := some 0x0000#16 }) ∧
  (∀ (k : KeyCode) (s : State), 13 < k.toNat → exec (.setTone k) s = .next { s with rdata := some 0x0000#16 })

/-- 40_tone.md R126 with 10_state.md R27: after a note the speaker is enabled with the note's count and the timer owns the
pad; after silence it is disabled and the pad is at level 0. -/
def Obligations.SpeakerIsEnabledByNotesAndDisabledBySilence : Prop :=
  (∀ (k : KeyCode) (s : State) (h : k.toNat < 14), 1 ≤ k.toNat →
    ∃ t, exec (.setTone k) s = .next t ∧ speakerEnabled t = true ∧ t.toneCmp = s.cfg.freq[k.toNat] ∧
      spkPad t = s.ocLvl) ∧
  (∀ s : State, ∃ t, exec (.setTone 0#4) s = .next t ∧ speakerDisabled t = true ∧ spkPad t = false)

/-- 10_state.md R27: the pad shows `OC_LVL` while the toggle is connected and `SPK_ACT` otherwise. -/
def Obligations.SpeakerPadFollowsTheToggle : Prop :=
  ∀ s : State, (s.toneCom = true → spkPad s = s.ocLvl) ∧ (s.toneCom = false → spkPad s = s.spkAct)

/-- 40_tone.md R128: one edge of the tone timer's clock, always enabled, in every state. -/
def Obligations.ToneClockEdgeCountsOrMatches : Prop :=
  ∀ s : State, stepEnabled .tclk s = true ∧
    (s.toneCs = false → performAgent .tclk s = .next s) ∧
    (s.toneCs = true → s.tcnt.toNat < s.toneCmp.toNat →
      performAgent .tclk s = .next { s with tcnt := s.tcnt + 1#16 }) ∧
    (s.toneCs = true → s.toneCmp.toNat ≤ s.tcnt.toNat → s.toneCom = true →
      performAgent .tclk s = .next { s with tcnt := 0#16, ocLvl := !s.ocLvl }) ∧
    (s.toneCs = true → s.toneCmp.toNat ≤ s.tcnt.toNat → s.toneCom = false →
      performAgent .tclk s = .next { s with tcnt := 0#16 })

/-- 40_tone.md section 3 (what its R129 and R130 derive): while a note sounds the pad holds its level until the counter has
run through the rest of the compare count, and toggles on the next edge; from a cleared counter that is `TONE_CMP` + 1
edges, and from a counter above the compare count it is one. -/
def Obligations.ToneTogglesAfterTheRestOfTheCount : Prop :=
  ∀ s : State, s.toneCs = true → s.toneCom = true →
    (∀ n : Nat, s.tcnt.toNat + n ≤ s.toneCmp.toNat →
      ∃ t, runTrace (List.replicate n .tclk) s = .next t ∧ t.tcnt.toNat = s.tcnt.toNat + n ∧ t.ocLvl = s.ocLvl ∧
        t.toneCmp = s.toneCmp) ∧
    (∃ t, runTrace (List.replicate (s.toneCmp.toNat - s.tcnt.toNat + 1) .tclk) s = .next t ∧ t.tcnt = 0#16 ∧
      t.ocLvl = !s.ocLvl ∧ t.toneCmp = s.toneCmp ∧ t.toneCs = true ∧ t.toneCom = true)

/-! The LED Display. -/

/-- 41_led.md R140: `SETLEDS k` drives LED position `i` with bit `i` of the code on the bit that `LED_MAP` gives, for all
sixteen codes, whatever the port was; a bit that carries no LED and everything else is unchanged. `LED_MAP` is injective
(R141, R243). -/
def Obligations.SetLedsRoutesTheKeyCode : Prop :=
  ∀ (k : KeyCode) (s : State), LedMapOk s.cfg →
    decodeCommand (0x2#4 ++ k) = .setLeds k ∧
    ∃ port : Port, exec (.setLeds k) s = .next { s with ledport := port, rdata := some 0x0000#16 } ∧
      (∀ i : Fin 4, port.getLsbD (s.cfg.ledMap[i]).val = k.getLsbD i.val) ∧
      (∀ j : Fin 8, (∀ i : Fin 4, s.cfg.ledMap[i] ≠ j) → port.getLsbD j.val = s.ledport.getLsbD j.val)

/-- 41_led.md R140 with the default `LED_MAP` of R141: the low half of the port is the code and the high half is
unchanged. -/
def Obligations.SetLedsUnderTheDefaultMap : Prop :=
  ∀ (k : KeyCode) (s : State), s.cfg.ledMap = #v[0, 1, 2, 3] →
    exec (.setLeds k) s = .next { s with ledport := s.ledport.extractLsb' 4 4 ++ k, rdata := some 0x0000#16 }

/-- 40_tone.md R125 (a), (b), 41_led.md R140 (b): a second `SETTONE` or `SETLEDS` of the same code changes nothing. -/
def Obligations.OutputCommandsAreIdempotent : Prop :=
  ∀ (k : KeyCode) (s : State), ∀ i ∈ [Instr.setTone k, Instr.setLeds k],
    ∃ t, exec i s = .next t ∧ exec i t = .next t

/-! The Key Scanner and the dispatcher. -/

/-- 42_keys.md R151: `SCANKEYS`, whatever its `ARG` is, returns the code of the lines as they are, zero-extended, which is
also in bits 7:4 of what `RDREG 4` returns, and changes nothing. Bit `i` of the code says that line `KEY_MAP(i)` is low. -/
def Obligations.ScanKeysReturnsThePressedKeys : Prop :=
  ∀ (arg : Arg) (s : State), ∃ (code : KeyCode) (x : Word),
    decodeCommand (0x3#4 ++ arg) = .scanKeys arg ∧
    exec (.scanKeys arg) s = .next { s with rdata := some (code.setWidth 16) } ∧
    (∀ i : Fin 4, code.getLsbD i.val = !s.keyin.getLsbD (s.cfg.keyMap[i]).val) ∧
    exec (.rdReg 4#4) s = .next { s with rdata := some x } ∧ x.extractLsb' 4 4 = code

/-- 42_keys.md R150: bit `i` of the scan is the complement of line `KEY_MAP(i)`; no line low scans to 0 and all low to 15
under every `KEY_MAP`; and only so where `KEY_MAP` is a permutation, as R152 has it. -/
def Obligations.ScanIsZeroExactlyWhenNoKeyIsPressed : Prop :=
  ∀ (c : Cfg) (v : Lines),
    (∀ i : Fin 4, (scan c v).getLsbD i.val = !v.getLsbD (c.keyMap[i]).val) ∧
    scan c 0b1111#4 = 0#4 ∧ scan c 0b0000#4 = 15#4 ∧
    (KeyMapOk c → (scan c v = 0#4 ↔ v = 0b1111#4) ∧ (scan c v = 15#4 ↔ v = 0b0000#4))

/-- 42_keys.md R153: the environment may move the key lines to any new value. The move takes the new levels, sets the flag of
every bank with a changed line whether or not the source is masked, keeps a flag that is set, and changes nothing else. -/
def Obligations.KeyLineMoveSetsTheBankFlags : Prop :=
  ∀ (s : State) (v : Lines), v ≠ s.keyin →
    stepEnabled (.keys v) s = true ∧
    ∃ pend : BankFlags, performAgent (.keys v) s = .next { s with keyin := v, keyPend := pend } ∧
      ∀ b : Fin 3, pend.getLsbD b.val =
        (s.keyPend.getLsbD b.val ||
          decide (∃ j : Fin 4, s.cfg.keyBank[j] = b ∧ v.getLsbD j.val ≠ s.keyin.getLsbD j.val))

/-- 42_keys.md R154: `KEYCHG b`, event id `b`, deliverable when `KEY_PEND[b]` and `KEY_IE` are set, clears the flag of bank `b` alone, then does what `SETTONE` and `SETLEDS` of the code the
lines have now do; it drives no `RDATA`. -/
def Obligations.KeyChangeAppliesTheScannedCode : Prop :=
  ∀ (s : State), ∀ p ∈ [(0b00#2, Instr.keyChg0, 0b110#3), (0b01#2, .keyChg1, 0b101#3), (0b10#2, .keyChg2, 0b011#3)],
    decodeEvent p.1 = p.2.1 ∧ deliverable p.1 s = (s.keyPend.getLsbD p.1.toNat && s.keyIe) ∧
    ∃ t2 t3, exec (.setTone (scan s.cfg s.keyin)) { s with keyPend := s.keyPend &&& p.2.2 } = .next t2 ∧
      exec (.setLeds (scan s.cfg s.keyin)) t2 = .next t3 ∧ exec p.2.1 s = .next { t3 with rdata := s.rdata }

/-- 42_keys.md section 3 (what its R155 derives): after key-line moves and deliveries in any order, with at least one move
and nothing left pending, the LEDs show the code of the final lines, and so does the tone if the code is at most 13. -/
def Obligations.OutputsSettleToTheFinalCode : Prop :=
  ∀ (as : List AgentStep) (s t : State),
    (∀ a ∈ as, (∃ v, a = .keys v) ∨ (∃ ev : EventId, ev ≠ 0b11#2 ∧ a = .arb ev)) → (∃ v, AgentStep.keys v ∈ as) →
    runTrace as s = .next t → t.keyPend = 0b000#3 →
    setLeds (scan t.cfg t.keyin) t = t ∧
      ((scan t.cfg t.keyin).toNat ≤ 13 → setTone (scan t.cfg t.keyin) t = t)

/-- 60_exceptions.md section 4 (what its R208 derives): two deliverable key requests delivered in either order leave the
same state. -/
def Obligations.KeyDeliveriesCommute : Prop :=
  ∀ (s : State) (b c : EventId), b ≠ 0b11#2 → c ≠ 0b11#2 → b ≠ c → deliverable b s = true → deliverable c s = true →
    ∃ t, runTrace [.arb b, .arb c] s = .next t ∧ runTrace [.arb c, .arb b] s = .next t

/-! The Note Sequencer. -/

/-- 43_sequencer.md R167, R168: `SEQSTART`, whatever its `ARG` is, is ignored while Playing and for a script whose first
entry is a sentinel. Otherwise it sounds the script's first note as `SETTONE` and `SETLEDS` do, masks the key interrupt,
starts the beat timer from 0 and fills `NOTES` with the script up to its first sentinel and 0x000 from there on. -/
def Obligations.SeqStartIsIgnoredOrBeginsPlayback : Prop :=
  ∀ (arg : Arg) (s : State), decodeCommand (0x4#4 ++ arg) = .seqStart arg ∧
    (s.playing = true ∨ (s.cfg.script[0]).extractLsb' 0 8 = 0#8 →
      exec (.seqStart arg) s = .next { s with rdata := some 0x0000#16 }) ∧
    (s.playing = false → (s.cfg.script[0]).extractLsb' 0 8 ≠ 0#8 →
      ∃ t2 t3, ∃ notes : Vector Note 16,
        exec (.setTone ((s.cfg.script[0]).extractLsb' 8 4)) s = .next t2 ∧
        exec (.setLeds ((s.cfg.script[0]).extractLsb' 8 4)) t2 = .next t3 ∧
        exec (.seqStart arg) s =
          .next { t3 with keyIe := false, notes := notes, seqIdx := 0#4, seqRem := (s.cfg.script[0]).extractLsb' 0 8,
                          bcnt := 0x0000#16, beatRun := true, playing := true, rdata := some 0x0000#16 } ∧
        ∀ i : Fin 16, notes[i] =
          if (∃ j : Fin 16, j ≤ i ∧ (s.cfg.script[j]).extractLsb' 0 8 = 0#8) then 0x000#12 else s.cfg.script[i])

/-- 43_sequencer.md R169: `TICK`, event id 3. While Idle it only clears its request; before the note's last tick it only
counts down; on the last tick the index advances modulo 16, and a next entry that is a note is loaded and sounded as
`SETTONE` and `SETLEDS` do, while a sentinel ends the playback (R170). -/
def Obligations.TickCountsDownOrAdvances : Prop :=
  decodeEvent 0b11#2 = .tick ∧
  (∀ s : State, s.playing = false → exec .tick s = .next { s with beatPend := false }) ∧
  (∀ s : State, s.playing = true → 2 ≤ s.seqRem.toNat →
    exec .tick s = .next { s with beatPend := false, seqRem := s.seqRem - 1#8 }) ∧
  (∀ (s : State) (n : Note), s.playing = true → s.seqRem.toNat < 2 → memReadNotes s (s.seqIdx + 1#4) = n →
    n.extractLsb' 0 8 ≠ 0#8 →
    ∃ t2 t3, exec (.setTone (n.extractLsb' 8 4)) s = .next t2 ∧ exec (.setLeds (n.extractLsb' 8 4)) t2 = .next t3 ∧
      exec .tick s =
        .next { t3 with beatPend := false, seqIdx := s.seqIdx + 1#4, seqRem := n.extractLsb' 0 8, rdata := s.rdata }) ∧
  (∀ (s : State) (n : Note), s.playing = true → s.seqRem.toNat < 2 → memReadNotes s (s.seqIdx + 1#4) = n →
    n.extractLsb' 0 8 = 0#8 →
    ∃ t, exec .tick s = .next t ∧ t.beatPend = false ∧ t.seqRem = 0#8 ∧ t.seqIdx = s.seqIdx + 1#4 ∧ t.playing = false)

/-- 43_sequencer.md R170: at the sentinel the same tick stops the beat timer, silences the speaker, turns the LEDs off,
enables the key interrupt and goes Idle. -/
def Obligations.TickStopsAtTheSentinel : Prop :=
  ∀ s : State, s.playing = true → s.seqRem.toNat < 2 →
    (memReadNotes s (s.seqIdx + 1#4)).extractLsb' 0 8 = 0#8 →
    ∃ t3, exec (.setLeds 0#4) s = .next t3 ∧
      exec .tick s =
        .next { t3 with beatPend := false, seqIdx := s.seqIdx + 1#4, seqRem := 0#8, beatRun := false,
                        toneCom := false, toneCs := false, spkAct := false, keyIe := true, playing := false,
                        rdata := s.rdata }

/-- 43_sequencer.md section 3 (what its R171 derives): under `SCRIPT_WF`, from an accepted `SEQSTART`, note `i` sounds from
tick number `dur(0) + ... + dur(i-1)` to tick number `dur(0) + ... + dur(i)`, and the tick that ends the playback is the
sum of all durations, at most 3825. -/
def Obligations.PlaybackLastsTheSumOfTheDurations : Prop :=
  ∀ s : State, ScriptWf s.cfg → s.playing = false →
    (∀ (i : Fin 16) (n : Nat), i.val < scriptLength s.cfg → ticksBefore s.cfg i.val ≤ n →
      n < ticksBefore s.cfg (i.val + 1) →
      let t := afterTicks n (seqStart s)
      t.playing = true ∧ t.seqIdx.toNat = i.val ∧ t.seqRem.toNat = ticksBefore s.cfg (i.val + 1) - n ∧
        setLeds (noteCode (s.cfg.script[i])) t = t ∧
        ((noteCode (s.cfg.script[i])).toNat ≤ 13 → setTone (noteCode (s.cfg.script[i])) t = t)) ∧
    (let t := afterTicks (playbackTicks s.cfg) (seqStart s)
     t.playing = false ∧ t.keyIe = true ∧ t.beatRun = false ∧ t.seqIdx.toNat = scriptLength s.cfg ∧
       speakerDisabled t = true ∧ setLeds 0#4 t = t) ∧
    playbackTicks s.cfg ≤ 3825

/-- 43_sequencer.md R177 (a): the block's own behaviour where the document says "undefined": a script with no sentinel is
played for ever, so no tick leaves Playing. -/
def Obligations.UnterminatedScriptNeverStops : Prop :=
  ∀ s : State, Invariant s → scriptLength s.cfg = 16 → s.playing = true →
    ∃ t, exec .tick s = .next t ∧ t.playing = true ∧ t.keyIe = false

/-- 20_memory.md R74: playback follows the copy: a tick does the same whatever `SCRIPT` holds. -/
def Obligations.TickDoesNotReadTheScript : Prop :=
  ∀ (s : State) (other : Vector Note 16),
    ∃ t, exec .tick s = .next t ∧
      exec .tick { s with cfg := { s.cfg with script := other } } =
        .next { t with cfg := { t.cfg with script := other } }

/-- 93_implementation_defined.md U11 with 43_sequencer.md R168: what a script holds after its first sentinel, and the
sentinel's own code, change nothing that `SEQSTART` does. -/
def Obligations.EntriesAfterTheSentinelDoNotMatter : Prop :=
  ∀ (arg : Arg) (s : State) (other : Vector Note 16), scriptLength s.cfg < 16 →
    scriptLength { s.cfg with script := other } = scriptLength s.cfg →
    (∀ i : Fin 16, i.val < scriptLength s.cfg → other[i] = s.cfg.script[i]) →
    ∃ t, exec (.seqStart arg) s = .next t ∧
      exec (.seqStart arg) { s with cfg := { s.cfg with script := other } } =
        .next { t with cfg := { t.cfg with script := other } }

/-- 43_sequencer.md R175, R176: one edge of the beat timer's clock, enabled only while no tick waits. -/
def Obligations.BeatClockEdgeCountsOrRequests : Prop :=
  ∀ s : State, (stepEnabled .bclk s = true ↔ s.beatPend = false) ∧
    (s.beatRun = false → performAgent .bclk s = .next s) ∧
    (s.beatRun = true → s.bcnt.toNat < s.cfg.beatPeriod.toNat →
      performAgent .bclk s = .next { s with bcnt := s.bcnt + 1#16 }) ∧
    (s.beatRun = true → s.cfg.beatPeriod.toNat ≤ s.bcnt.toNat →
      performAgent .bclk s = .next { s with bcnt := 0#16, beatPend := true })

/-- 43_sequencer.md R175: from a cleared counter the request comes at edge number `BEAT_PERIOD` + 1 and not before. -/
def Obligations.BeatRequestComesAfterThePeriod : Prop :=
  ∀ s : State, s.beatRun = true → s.beatPend = false → s.bcnt = 0#16 →
    (∀ n : Nat, n ≤ s.cfg.beatPeriod.toNat →
      ∃ t, runTrace (List.replicate n .bclk) s = .next t ∧ t.bcnt.toNat = n ∧ t.beatPend = false) ∧
    (∃ t, runTrace (List.replicate (s.cfg.beatPeriod.toNat + 1) .bclk) s = .next t ∧ t.bcnt = 0#16 ∧
      t.beatPend = true)

/-! Read-back and reserved words. -/

/-- 44_readback.md R190: `RDREG r` returns `x[r]` and changes nothing: the nine read views of 10_state.md R40 to R48, field by
field and bit by bit, and 0x0000 for the numbers 9 to 15. -/
def Obligations.RdRegReturnsTheReadViews : Prop :=
  ∀ s : State, ∃ x : Arg → Word,
    (∀ r : Arg, decodeCommand (0x5#4 ++ r) = .rdReg r ∧ exec (.rdReg r) s = .next { s with rdata := some (x r) }) ∧
    x 0#4 = s.toneCmp ∧
    ((x 1#4).getLsbD 0 = s.toneCom ∧ (x 1#4).getLsbD 1 = s.toneCs ∧ (x 1#4).getLsbD 2 = s.spkAct ∧
      (x 1#4).getLsbD 3 = s.ocLvl ∧ (x 1#4).getLsbD 4 = spkPad s ∧ (x 1#4).extractLsb' 5 11 = 0#11) ∧
    x 2#4 = s.tcnt ∧
    ((x 3#4).extractLsb' 0 8 = s.ledport ∧ (x 3#4).extractLsb' 8 8 = 0#8) ∧
    ((x 4#4).extractLsb' 0 4 = s.keyin ∧ (x 4#4).extractLsb' 4 4 = scan s.cfg s.keyin ∧
      (x 4#4).extractLsb' 8 8 = 0#8) ∧
    ((x 5#4).getLsbD 0 = s.keyIe ∧ (x 5#4).extractLsb' 1 3 = s.keyPend ∧ (x 5#4).getLsbD 4 = s.beatPend ∧
      (x 5#4).extractLsb' 5 11 = 0#11) ∧
    ((x 6#4).getLsbD 0 = s.playing ∧ (x 6#4).getLsbD 1 = s.beatRun ∧ (x 6#4).extractLsb' 2 2 = 0#2 ∧
      (x 6#4).extractLsb' 4 4 = s.seqIdx ∧ (x 6#4).extractLsb' 8 8 = s.seqRem) ∧
    x 7#4 = s.bcnt ∧ x 8#4 = s.cfg.beatPeriod ∧ ∀ r : Arg, 9 ≤ r.toNat → x r = 0x0000#16

/-- 10_state.md R49: a reserved register number reads 0x0000 and changes nothing. -/
def Obligations.ReservedRegistersReadZero : Prop :=
  ∀ (r : Arg) (s : State), 9 ≤ r.toNat → exec (.rdReg r) s = .next { s with rdata := some 0x0000#16 }

/-- 44_readback.md R191: `RDNOTE i` returns entry `i` of `NOTES`, zero-extended, and changes nothing. -/
def Obligations.RdNoteReturnsTheEntry : Prop :=
  ∀ (i : NoteIndex) (s : State), decodeCommand (0x6#4 ++ i) = .rdNote i ∧
    exec (.rdNote i) s = .next { s with rdata := some ((s.notes[i.toNat]'i.isLt).setWidth 16) }

/-- 44_readback.md R192: `RDFREQ k` returns entry `k` of the Frequency Table, 0x0000 for 14 and 15, and changes
nothing. -/
def Obligations.RdFreqReturnsTheEntryOrZero : Prop :=
  (∀ k : KeyCode, decodeCommand (0x7#4 ++ k) = .rdFreq k) ∧
  (∀ (k : KeyCode) (s : State) (h : k.toNat < 14),
    exec (.rdFreq k) s = .next { s with rdata := some s.cfg.freq[k.toNat] }) ∧
  (∀ (k : KeyCode) (s : State), 13 < k.toNat → exec (.rdFreq k) s = .next { s with rdata := some 0x0000#16 })

/-- 30_encoding.md R95: a reserved command word changes no state of the block, returns 0x0000, and raises nothing. -/
def Obligations.ReservedCommandWordsDoNothing : Prop :=
  (∀ (cw : CommandWord) (s : State), cw.extractLsb' 4 4 = 0x0#4 ∨ 8 ≤ (cw.extractLsb' 4 4).toNat →
    exec (decodeCommand cw) s = .next { s with rdata := some 0x0000#16 }) ∧
  (∀ (arg : Arg) (s : State), exec (.reservedOp0 arg) s = .next { s with rdata := some 0x0000#16 }) ∧
  (∀ (op : BitVec 4) (arg : Arg) (s : State),
    exec (.reservedOp8F op arg) s = .next { s with rdata := some 0x0000#16 })

/-- 30_encoding.md R96: all values of `ARG` of `SCANKEYS` and of `SEQSTART` select the same operation with the same effect, and
an assembler emits 0; `SETTONE` 14 and 15 are no reserved encodings but a `SETTONE` that changes nothing; the high arguments
of `RDREG` and `RDFREQ` read as zero. -/
def Obligations.ArgIsIgnoredWhereTheRuleSaysSo : Prop :=
  ∀ (a b : Arg) (s : State),
    (decodeCommand (0x3#4 ++ a)).row = .scanKeys ∧ (decodeCommand (0x4#4 ++ a)).row = .seqStart ∧
    exec (decodeCommand (0x3#4 ++ a)) s = exec (decodeCommand (0x3#4 ++ b)) s ∧
    exec (decodeCommand (0x4#4 ++ a)) s = exec (decodeCommand (0x4#4 ++ b)) s ∧
    (∃ i j, buildCommand .scanKeys none = .ok i ∧ commandWordOf i = some 0x30#8 ∧
      buildCommand .seqStart none = .ok j ∧ commandWordOf j = some 0x40#8) ∧
    (14 ≤ a.toNat → decodeCommand (0x1#4 ++ a) = .setTone a ∧
      exec (.setTone a) s = .next { s with rdata := some 0x0000#16 }) ∧
    (9 ≤ a.toNat → exec (decodeCommand (0x5#4 ++ a)) s = .next { s with rdata := some 0x0000#16 }) ∧
    (14 ≤ a.toNat → exec (decodeCommand (0x7#4 ++ a)) s = .next { s with rdata := some 0x0000#16 })

/-- 30_encoding.md R94 with the column of R93: every command drives `RDATA` in its own step, 0x0000 unless it is a
read; no other agent's step drives it, and then the port carries any value; no step reads it. That `RDATA` stands in a field
is the model's choice, log entry 5. -/
def Obligations.OnlyCommandsDriveReadData : Prop :=
  ∀ (a : AgentStep) (rest : List AgentStep) (s t : State), takeAgentStep a rest s = .next t →
    (∀ cw, a = .host cw → ∃ v, t.rdata = some v ∧
      ((decodeCommand cw).row ∉ [OpcodeRow.scanKeys, .rdReg, .rdNote, .rdFreq] → v = 0x0000#16)) ∧
    ((∀ cw, a ≠ .host cw) → t.rdata = none ∧ rdataPort t = Config.undrivenRdata t.freeCount) ∧
    (∀ v, takeAgentStep a rest { s with rdata := v } = .next t)

/-! Reset. -/

/-- 70_reset_and_hazards.md R240 with 10_state.md R52: reset may occur in any state and puts every field but `KEYIN` to its
reset value. -/
def Obligations.ResetPutsEveryFieldButTheKeyLines : Prop :=
  ∀ (s : State) (rest : List AgentStep), s.inputs = .rst :: rest →
    step s = .next
      { cfg := s.cfg, toneCmp := 0x0000#16, toneCom := false, toneCs := false, spkAct := false, ocLvl := false,
        tcnt := 0x0000#16, ledport := 0x00#8, keyin := s.keyin, keyIe := true, keyPend := 0b000#3, beatPend := false,
        playing := false, seqIdx := 0#4, seqRem := 0x00#8, notes := Vector.replicate 16 0x000#12, beatRun := false,
        bcnt := 0x0000#16, rdata := none, inputs := rest, freeCount := s.freeCount + 1 }

/-- 10_state.md R52: the views after reset, whatever the configuration and the key lines are: silent, dark, Idle, with the
key interrupt enabled and nothing deliverable. -/
def Obligations.ResetStateIsSilentDarkAndIdle : Prop :=
  ∀ (c : Cfg) (v : Lines),
    spkPad (State.resetWith c v) = false ∧ (∀ j : Fin 8, ledPad (State.resetWith c v) j = false) ∧
    (∀ r ∈ [0#4, 1#4, 2#4, 3#4, 6#4, 7#4], regView (State.resetWith c v) r = 0x0000#16) ∧
    regView (State.resetWith c v) 5#4 = 0x0001#16 ∧ (∀ ev : EventId, deliverable ev (State.resetWith c v) = false) ∧
    (∀ i : NoteIndex, memReadNotes (State.resetWith c v) i = 0x000#12)

/-! Whole-machine rules. -/

/-- 70_reset_and_hazards.md R241: after reset every invariant of section 3 of that file holds. -/
def Obligations.InvariantHoldsAfterReset : Prop :=
  (∀ (c : Cfg) (v : Lines), Invariant (State.resetWith c v)) ∧ Invariant State.reset

/-- 70_reset_and_hazards.md section 3 (what its R257 derives, clauses (a) to (f), (h), (j), (k)): every step keeps the
invariant, whichever agent takes it and whatever the configuration is. -/
def Obligations.EveryStepKeepsTheInvariant : Prop :=
  ∀ s t : State, Invariant s → step s = .next t → Invariant t

/-- 70_reset_and_hazards.md section 3: the invariant holds in every state that any trace of the agents' steps reaches from
reset, under any configuration and from any key lines. -/
def Obligations.EveryReachableStateMeetsTheInvariant : Prop :=
  ∀ (c : Cfg) (v : Lines) (as : List AgentStep) (t : State),
    runTrace as (State.resetWith c v) = .next t → Invariant t

/-- 70_reset_and_hazards.md section 3 (what its R257 (g) derives): while Playing the LEDs and the tone stay those of the
sequencer's notes, the four tone fields being what `SETTONE` of the notes so far has left of those that `SEQSTART` found,
under every step but a `SETTONE` or `SETLEDS` command (R251); and of those steps only a tick writes a tone field or
`LEDPORT` while the block stays Playing. That (g) means all four fields, taken note by note from those at `SEQSTART` and only
under `SCRIPT_WF`, is the model's inference (DEDUCED), log entry 22. -/
def Obligations.PlaybackOwnsTheOutputs : Prop :=
  ∀ (a : AgentStep) (rest : List AgentStep) (s t : State) (start : ToneFields), Invariant s →
    SequencerOwnsOutputs start s → keepsHandsOff a s = true → takeAgentStep a rest s = .next t →
    SequencerOwnsOutputs (if s.playing then start else toneFields s) t ∧
    (s.playing = true → t.playing = true → toneFields t ≠ toneFields s ∨ t.ledport ≠ s.ledport → a = .arb 0b11#2)

/-- 43_sequencer.md R172 with the transitions of R165: only an accepted `SEQSTART` begins a playback, and only the tick that
reaches the sentinel, or reset, ends one. -/
def Obligations.PlaybackEndsOnlyAtItsSentinelOrByReset : Prop :=
  ∀ (a : AgentStep) (rest : List AgentStep) (s t : State), takeAgentStep a rest s = .next t →
    (s.playing = true → t.playing = false →
      a = .rst ∨ (a = .arb 0b11#2 ∧ s.seqRem.toNat < 2 ∧
        (memReadNotes s (s.seqIdx + 1#4)).extractLsb' 0 8 = 0#8)) ∧
    (s.playing = false → t.playing = true →
      ∃ cw, a = .host cw ∧ cw.extractLsb' 4 4 = 0x4#4 ∧ (s.cfg.script[0]).extractLsb' 0 8 ≠ 0#8)

/-- 60_exceptions.md R211, 20_memory.md R73: while Playing no key request can be delivered, so the dispatcher cannot run;
and a key request and a tick are never deliverable together (what R208 derives). -/
def Obligations.PlaybackMasksTheKeyPath : Prop :=
  ∀ (s : State), Invariant s →
    (owner s = .sequencer → ∀ (ev : EventId) (rest : List AgentStep), ev ≠ 0b11#2 →
      takeAgentStep (.arb ev) rest s = .refused (.notEnabled (.arb ev))) ∧
    (∀ ev : EventId, ev ≠ 0b11#2 → ¬ (deliverable ev s = true ∧ deliverable 0b11#2 s = true))

/-- 10_state.md R20 (the column of writers), R39, 20_memory.md R70, 60_exceptions.md R202, R203: only the steps named write
each field, and no step changes the configuration. -/
def Obligations.OnlyTheNamedStepsWriteEachField : Prop :=
  ∀ (a : AgentStep) (rest : List AgentStep) (s t : State), takeAgentStep a rest s = .next t →
    let isCommand (r : OpcodeRow) : Prop := ∃ cw, a = .host cw ∧ (decodeCommand cw).row = r
    let isKeyDelivery : Prop := ∃ ev, a = .arb ev ∧ ev ≠ 0b11#2
    let isTick : Prop := a = .arb 0b11#2
    t.cfg = s.cfg ∧
    (t.ocLvl ≠ s.ocLvl ∨ t.tcnt ≠ s.tcnt → a = .tclk ∨ a = .rst) ∧
    (t.keyin ≠ s.keyin → ∃ v, a = .keys v) ∧
    (t.keyPend ≠ s.keyPend → (∃ v, a = .keys v) ∨ isKeyDelivery ∨ a = .rst) ∧
    (t.beatPend ≠ s.beatPend → a = .bclk ∨ isTick ∨ a = .rst) ∧
    (t.keyIe ≠ s.keyIe ∨ t.playing ≠ s.playing ∨ t.seqIdx ≠ s.seqIdx ∨ t.seqRem ≠ s.seqRem ∨ t.beatRun ≠ s.beatRun →
      isCommand .seqStart ∨ isTick ∨ a = .rst) ∧
    (t.notes ≠ s.notes → isCommand .seqStart ∨ a = .rst) ∧
    (t.bcnt ≠ s.bcnt → a = .bclk ∨ isCommand .seqStart ∨ a = .rst) ∧
    (t.ledport ≠ s.ledport → isCommand .setLeds ∨ isCommand .seqStart ∨ isKeyDelivery ∨ isTick ∨ a = .rst) ∧
    (t.toneCmp ≠ s.toneCmp ∨ t.toneCom ≠ s.toneCom ∨ t.toneCs ≠ s.toneCs ∨ t.spkAct ≠ s.spkAct →
      isCommand .setTone ∨ isCommand .seqStart ∨ isKeyDelivery ∨ isTick ∨ a = .rst)

/-- 70_reset_and_hazards.md section 3 (what its R257 (i) derives): the tone counter never passes a bound on the compare
value and the Frequency Table's notes, no step takes it above the larger of itself and `TONE_CMP`, and an edge taken with
the clock running leaves it at or below `TONE_CMP`. -/
def Obligations.ToneCounterStaysBounded : Prop :=
  ∀ (a : AgentStep) (rest : List AgentStep) (s t : State) (m : Nat), takeAgentStep a rest s = .next t →
    s.tcnt.toNat ≤ m → s.toneCmp.toNat ≤ m → (∀ k : Fin 14, 1 ≤ k.val → (s.cfg.freq[k]).toNat ≤ m) →
    t.tcnt.toNat ≤ m ∧ t.toneCmp.toNat ≤ m ∧ t.tcnt.toNat ≤ max s.tcnt.toNat s.toneCmp.toNat ∧
    (a = .tclk → s.toneCs = true → t.tcnt.toNat ≤ t.toneCmp.toNat)

/-- 20_memory.md R61, 93_implementation_defined.md U4: no operation but `RDFREQ 0` reads entry 0 of the Frequency Table. -/
def Obligations.FrequencyEntryZeroIsReadOnlyByRdFreq : Prop :=
  ∀ (i : Instr) (s : State) (w : Word), i ≠ .rdFreq 0#4 →
    ∃ t, exec i s = .next t ∧
      exec i { s with cfg := { s.cfg with freq := s.cfg.freq.set 0 w } } =
        .next { t with cfg := { t.cfg with freq := t.cfg.freq.set 0 w } }

/-- 00_scope.md R19, 43_sequencer.md R173: the clock, the note frequencies and the tempo parameters enter no rule. -/
def Obligations.ConstructionParametersEnterNoRule : Prop :=
  ∀ (a : AgentStep) (rest : List AgentStep) (s t : State) (f b d p : Nat) (hz : Vector Hertz 13),
    takeAgentStep a rest s = .next t →
    takeAgentStep a rest
        { s with cfg := { s.cfg with fClk := f, noteHz := hz, bpm := b, subdiv := d, beatPrescale := p } } =
      .next { t with cfg := { t.cfg with fClk := f, noteHz := hz, bpm := b, subdiv := d, beatPrescale := p } }

/-- 60_exceptions.md R212: every step of the clocked block is a step of the block without clocks, with the same `RDATA`, or,
for a clock edge, no step of it. That a read of a dropped field is free there is the model's choice, log entry 21. -/
def Obligations.ClockedStepsMapToTheClockFreeBlock : Prop :=
  ∀ (a : AgentStep) (rest : List AgentStep) (s t : State), Invariant s → takeAgentStep a rest s = .next t →
    (isClockEdge a = true → forgetClocks t = { forgetClocks s with rdata := none } ∧
      ∀ (d : Dropped) (u : State), clockFreeStep d a u = .refused (.notEnabled a)) ∧
    (isClockEdge a = false → clockFreeStep (droppedOf s) a (forgetClocks s) = .next (forgetClocks t))

/-- 00_scope.md R7, 60_exceptions.md R208: with no step listed, the step is the enabled step of an agent of the model's
free choice, or none (the model's choice, log entry 4). -/
def Obligations.UnlistedStepIsSomeAgentsStep : Prop :=
  ∀ (s : State), s.inputs = [] →
    ∃ t, step s = .next t ∧
      ((∃ a, takeAgentStep a [] s = .next t) ∨ t = { s with rdata := none, freeCount := s.freeCount + 1 })

/-- 60_exceptions.md R212: every run of the clocked block maps onto a run of the block without clocks: the same steps with
the clock edges left out, from the same state to the same state but for the dropped fields and `RDATA`. -/
def Obligations.ClockedRunsMapToClockFreeRuns : Prop :=
  ∀ (as : List AgentStep) (s t : State), Invariant s → runTrace as s = .next t →
    ∃ (ds : List (Dropped × AgentStep)) (u : State),
      ds.map Prod.snd = as.filter (fun a => !isClockEdge a) ∧
      clockFreeRun ds (forgetClocks s) = .next u ∧
      { u with rdata := none } = { forgetClocks t with rdata := none }

/-- 60_exceptions.md R212: the source-layer rules are unchanged in the block without clocks: a step of it answers what the
rules of the clocked block give, `RDATA` included, whatever the dropped fields are; only `RDREG` of a register that shows a
dropped field reads them. -/
def Obligations.ClockFreeStepsReadNoDroppedField : Prop :=
  ∀ (d : Dropped) (a : AgentStep) (s t : State), clockFreeEnabled a s = true →
    (∀ r ∈ [1#4, 2#4, 5#4, 7#4], a ≠ .host (0x5#4 ++ r)) → performAgent a { s with rdata := none } = .next t →
    clockFreeStep d a s = .next (forgetClocks t)

/-- 70_reset_and_hazards.md section 3 (what its R257 derives of the past, (i) and (k)): every step keeps `TCNT` at most the
largest value that `TONE_CMP` has held, and `NOTES` all 0x000 before the first accepted `SEQSTART` and the script's copy
after it. The record `Past`, and that `SEQSTART` is accepted where a step goes from Idle to Playing, counted since reset, are
the model's inference (DEDUCED), log entry 22. -/
def Obligations.EveryStepKeepsThePastInvariant : Prop :=
  ∀ (a : AgentStep) (rest : List AgentStep) (h : Past) (s t : State), Invariant s → PastInvariant h s →
    takeAgentStep a rest s = .next t → PastInvariant (h.after a s t) t

/-- 70_reset_and_hazards.md section 3 (what its R257 derives, (g), (i) and (k) over whole runs): at the end of every run from
reset, under every configuration and from any key lines, `TCNT` is at most the largest value that `TONE_CMP` has held and
`NOTES` is as the past says; and if no `SETTONE` or `SETLEDS` command was issued while Playing, the outputs are the
sequencer's while it plays. The record `Past` along the run, and that (g) means all four fields, taken note by note from those
at `SEQSTART` and only under `SCRIPT_WF`, are the model's inference (DEDUCED), log entry 22. -/
def Obligations.EveryRunFromResetMeetsThePastInvariant : Prop :=
  ∀ (c : Cfg) (v : Lines) (as : List AgentStep) (t : State), runTrace as (State.resetWith c v) = .next t →
    let h := (Past.start (State.resetWith c v)).along as (State.resetWith c v)
    PastInvariant h t ∧
    (runKeepsHandsOff as (State.resetWith c v) = true → SequencerOwnsOutputs h.toneAtStart t)

/-- 40_tone.md section 1 (what its R124 derives, and the sentence it quotes): a Frequency Table that follows the document's
formula, over notes that ascend by a semitone, is strictly descending over 1..13 where the clock is at least 34 times A4, in
particular at 200 kHz and A4 = 440 Hz; and no step of any agent changes an entry of it. How R124's "about" is read is the
model's inference, log entry 23; that `F_CLK` is a whole number of hertz is the model's choice, log entry 24. -/
def Obligations.FrequencyTableDescendsAndIsReadOnly : Prop :=
  (∀ c : Cfg, FreqOk c → NotesAscend c → 34 * (a4 c).num ≤ c.fClk * (a4 c).den → FreqDescends c) ∧
  (∀ c : Cfg, FreqOk c → NotesAscend c → (a4 c).num ≤ 440 * (a4 c).den → 200000 ≤ c.fClk → FreqDescends c) ∧
  (∀ (a : AgentStep) (rest : List AgentStep) (s t : State), takeAgentStep a rest s = .next t →
    ∀ k : Fin 14, memReadFreq t.cfg k = memReadFreq s.cfg k)
end

