-- ==== Sys2Proof/Laws/State.lean ====
section
/-!
SUPPORT. Each field of the state after each of the updates that meanings share: what an update leaves alone, and what it
writes. Later proofs cite these and do not unfold a record update.
-/

namespace Sys2Proof.Machine

/-! The primitives of 00_scope.md R10 to R15 as record updates. -/

@[simp] theorem setCompareValue_eq (c : Word) (s : State) : setCompareValue c s = { s with toneCmp := c } := rfl
@[simp] theorem connectOutputToggle_eq (s : State) : connectOutputToggle s = { s with toneCom := true } := rfl
@[simp] theorem disconnectOutputToggle_eq (s : State) : disconnectOutputToggle s = { s with toneCom := false } := rfl
@[simp] theorem startTimer_tone (s : State) : startTimer .tone s = { s with toneCs := true } := rfl
@[simp] theorem startTimer_beat (s : State) : startTimer .beat s = { s with bcnt := 0x0000#16, beatRun := true } := rfl
@[simp] theorem stopTimer_tone (s : State) : stopTimer .tone s = { s with toneCs := false } := rfl
@[simp] theorem stopTimer_beat (s : State) : stopTimer .beat s = { s with beatRun := false } := rfl
@[simp] theorem setPin_spk (b : Bool) (s : State) : setPin .spk b s = { s with spkAct := b } := rfl
@[simp] theorem setPin_led (i : Fin 4) (b : Bool) (s : State) :
    setPin (.led i) b s = { s with ledport := writeLed s.cfg i b s.ledport } := rfl
@[simp] theorem disableKeyInterrupt_eq (s : State) : disableKeyInterrupt s = { s with keyIe := false } := rfl
@[simp] theorem enableKeyInterrupt_eq (s : State) : enableKeyInterrupt s = { s with keyIe := true } := rfl
@[simp] theorem configureHardware_eq (s : State) : configureHardware s = s := rfl
@[simp] theorem enterLowPowerSleep_eq (s : State) : enterLowPowerSleep s = s := rfl
@[simp] theorem returnFromHandler_eq (s : State) : returnFromHandler s = s := rfl

/-! `RDATA` (30_encoding.md R94). -/

@[simp] theorem driveRdata_cfg (v : Word) (s : State) : (driveRdata v s).cfg = s.cfg := rfl
@[simp] theorem driveRdata_toneCmp (v : Word) (s : State) : (driveRdata v s).toneCmp = s.toneCmp := rfl
@[simp] theorem driveRdata_toneCom (v : Word) (s : State) : (driveRdata v s).toneCom = s.toneCom := rfl
@[simp] theorem driveRdata_toneCs (v : Word) (s : State) : (driveRdata v s).toneCs = s.toneCs := rfl
@[simp] theorem driveRdata_spkAct (v : Word) (s : State) : (driveRdata v s).spkAct = s.spkAct := rfl
@[simp] theorem driveRdata_ocLvl (v : Word) (s : State) : (driveRdata v s).ocLvl = s.ocLvl := rfl
@[simp] theorem driveRdata_tcnt (v : Word) (s : State) : (driveRdata v s).tcnt = s.tcnt := rfl
@[simp] theorem driveRdata_ledport (v : Word) (s : State) : (driveRdata v s).ledport = s.ledport := rfl
@[simp] theorem driveRdata_keyin (v : Word) (s : State) : (driveRdata v s).keyin = s.keyin := rfl
@[simp] theorem driveRdata_keyIe (v : Word) (s : State) : (driveRdata v s).keyIe = s.keyIe := rfl
@[simp] theorem driveRdata_keyPend (v : Word) (s : State) : (driveRdata v s).keyPend = s.keyPend := rfl
@[simp] theorem driveRdata_beatPend (v : Word) (s : State) : (driveRdata v s).beatPend = s.beatPend := rfl
@[simp] theorem driveRdata_playing (v : Word) (s : State) : (driveRdata v s).playing = s.playing := rfl
@[simp] theorem driveRdata_seqIdx (v : Word) (s : State) : (driveRdata v s).seqIdx = s.seqIdx := rfl
@[simp] theorem driveRdata_seqRem (v : Word) (s : State) : (driveRdata v s).seqRem = s.seqRem := rfl
@[simp] theorem driveRdata_notes (v : Word) (s : State) : (driveRdata v s).notes = s.notes := rfl
@[simp] theorem driveRdata_beatRun (v : Word) (s : State) : (driveRdata v s).beatRun = s.beatRun := rfl
@[simp] theorem driveRdata_bcnt (v : Word) (s : State) : (driveRdata v s).bcnt = s.bcnt := rfl
@[simp] theorem driveRdata_rdata (v : Word) (s : State) : (driveRdata v s).rdata = some v := rfl
@[simp] theorem driveRdata_inputs (v : Word) (s : State) : (driveRdata v s).inputs = s.inputs := rfl
@[simp] theorem driveRdata_freeCount (v : Word) (s : State) : (driveRdata v s).freeCount = s.freeCount := rfl

/-! What every step does beside its agent's effect. -/

@[simp] theorem beginStep_cfg (rest : List AgentStep) (s : State) : (beginStep rest s).cfg = s.cfg := rfl
@[simp] theorem beginStep_toneCmp (rest : List AgentStep) (s : State) : (beginStep rest s).toneCmp = s.toneCmp := rfl
@[simp] theorem beginStep_toneCom (rest : List AgentStep) (s : State) : (beginStep rest s).toneCom = s.toneCom := rfl
@[simp] theorem beginStep_toneCs (rest : List AgentStep) (s : State) : (beginStep rest s).toneCs = s.toneCs := rfl
@[simp] theorem beginStep_spkAct (rest : List AgentStep) (s : State) : (beginStep rest s).spkAct = s.spkAct := rfl
@[simp] theorem beginStep_ocLvl (rest : List AgentStep) (s : State) : (beginStep rest s).ocLvl = s.ocLvl := rfl
@[simp] theorem beginStep_tcnt (rest : List AgentStep) (s : State) : (beginStep rest s).tcnt = s.tcnt := rfl
@[simp] theorem beginStep_ledport (rest : List AgentStep) (s : State) : (beginStep rest s).ledport = s.ledport := rfl
@[simp] theorem beginStep_keyin (rest : List AgentStep) (s : State) : (beginStep rest s).keyin = s.keyin := rfl
@[simp] theorem beginStep_keyIe (rest : List AgentStep) (s : State) : (beginStep rest s).keyIe = s.keyIe := rfl
@[simp] theorem beginStep_keyPend (rest : List AgentStep) (s : State) : (beginStep rest s).keyPend = s.keyPend := rfl
@[simp] theorem beginStep_beatPend (rest : List AgentStep) (s : State) : (beginStep rest s).beatPend = s.beatPend := rfl
@[simp] theorem beginStep_playing (rest : List AgentStep) (s : State) : (beginStep rest s).playing = s.playing := rfl
@[simp] theorem beginStep_seqIdx (rest : List AgentStep) (s : State) : (beginStep rest s).seqIdx = s.seqIdx := rfl
@[simp] theorem beginStep_seqRem (rest : List AgentStep) (s : State) : (beginStep rest s).seqRem = s.seqRem := rfl
@[simp] theorem beginStep_notes (rest : List AgentStep) (s : State) : (beginStep rest s).notes = s.notes := rfl
@[simp] theorem beginStep_beatRun (rest : List AgentStep) (s : State) : (beginStep rest s).beatRun = s.beatRun := rfl
@[simp] theorem beginStep_bcnt (rest : List AgentStep) (s : State) : (beginStep rest s).bcnt = s.bcnt := rfl
@[simp] theorem beginStep_rdata (rest : List AgentStep) (s : State) : (beginStep rest s).rdata = none := rfl
@[simp] theorem beginStep_inputs (rest : List AgentStep) (s : State) : (beginStep rest s).inputs = rest := rfl
@[simp] theorem beginStep_freeCount (rest : List AgentStep) (s : State) : (beginStep rest s).freeCount = s.freeCount + 1 := rfl

/-! The copy of the script (43_sequencer.md R168) writes `NOTES` alone. -/

@[simp] theorem copyScript_cfg (s : State) : (copyScript s).cfg = s.cfg := by simp only [copyScript]
@[simp] theorem copyScript_toneCmp (s : State) : (copyScript s).toneCmp = s.toneCmp := by simp only [copyScript]
@[simp] theorem copyScript_toneCom (s : State) : (copyScript s).toneCom = s.toneCom := by simp only [copyScript]
@[simp] theorem copyScript_toneCs (s : State) : (copyScript s).toneCs = s.toneCs := by simp only [copyScript]
@[simp] theorem copyScript_spkAct (s : State) : (copyScript s).spkAct = s.spkAct := by simp only [copyScript]
@[simp] theorem copyScript_ocLvl (s : State) : (copyScript s).ocLvl = s.ocLvl := by simp only [copyScript]
@[simp] theorem copyScript_tcnt (s : State) : (copyScript s).tcnt = s.tcnt := by simp only [copyScript]
@[simp] theorem copyScript_ledport (s : State) : (copyScript s).ledport = s.ledport := by simp only [copyScript]
@[simp] theorem copyScript_keyin (s : State) : (copyScript s).keyin = s.keyin := by simp only [copyScript]
@[simp] theorem copyScript_keyIe (s : State) : (copyScript s).keyIe = s.keyIe := by simp only [copyScript]
@[simp] theorem copyScript_keyPend (s : State) : (copyScript s).keyPend = s.keyPend := by simp only [copyScript]
@[simp] theorem copyScript_beatPend (s : State) : (copyScript s).beatPend = s.beatPend := by simp only [copyScript]
@[simp] theorem copyScript_playing (s : State) : (copyScript s).playing = s.playing := by simp only [copyScript]
@[simp] theorem copyScript_seqIdx (s : State) : (copyScript s).seqIdx = s.seqIdx := by simp only [copyScript]
@[simp] theorem copyScript_seqRem (s : State) : (copyScript s).seqRem = s.seqRem := by simp only [copyScript]
@[simp] theorem copyScript_notes (s : State) : (copyScript s).notes = copyEntries s.cfg 16 false s.notes := by simp only [copyScript]
@[simp] theorem copyScript_beatRun (s : State) : (copyScript s).beatRun = s.beatRun := by simp only [copyScript]
@[simp] theorem copyScript_bcnt (s : State) : (copyScript s).bcnt = s.bcnt := by simp only [copyScript]
@[simp] theorem copyScript_rdata (s : State) : (copyScript s).rdata = s.rdata := by simp only [copyScript]
@[simp] theorem copyScript_inputs (s : State) : (copyScript s).inputs = s.inputs := by simp only [copyScript]
@[simp] theorem copyScript_freeCount (s : State) : (copyScript s).freeCount = s.freeCount := by simp only [copyScript]

/-! Reset (70_reset_and_hazards.md R240) keeps the configuration and the key lines. -/

@[simp] theorem assertReset_cfg (s : State) : (assertReset s).cfg = s.cfg := by simp only [assertReset, State.resetWith]
@[simp] theorem assertReset_toneCmp (s : State) : (assertReset s).toneCmp = 0x0000#16 := by simp only [assertReset, State.resetWith]
@[simp] theorem assertReset_toneCom (s : State) : (assertReset s).toneCom = false := by simp only [assertReset, State.resetWith]
@[simp] theorem assertReset_toneCs (s : State) : (assertReset s).toneCs = false := by simp only [assertReset, State.resetWith]
@[simp] theorem assertReset_spkAct (s : State) : (assertReset s).spkAct = false := by simp only [assertReset, State.resetWith]
@[simp] theorem assertReset_ocLvl (s : State) : (assertReset s).ocLvl = false := by simp only [assertReset, State.resetWith]
@[simp] theorem assertReset_tcnt (s : State) : (assertReset s).tcnt = 0x0000#16 := by simp only [assertReset, State.resetWith]
@[simp] theorem assertReset_ledport (s : State) : (assertReset s).ledport = 0x00#8 := by simp only [assertReset, State.resetWith]
@[simp] theorem assertReset_keyin (s : State) : (assertReset s).keyin = s.keyin := by simp only [assertReset, State.resetWith]
@[simp] theorem assertReset_keyIe (s : State) : (assertReset s).keyIe = true := by simp only [assertReset, State.resetWith]
@[simp] theorem assertReset_keyPend (s : State) : (assertReset s).keyPend = 0b000#3 := by simp only [assertReset, State.resetWith]
@[simp] theorem assertReset_beatPend (s : State) : (assertReset s).beatPend = false := by simp only [assertReset, State.resetWith]
@[simp] theorem assertReset_playing (s : State) : (assertReset s).playing = false := by simp only [assertReset, State.resetWith]
@[simp] theorem assertReset_seqIdx (s : State) : (assertReset s).seqIdx = 0#4 := by simp only [assertReset, State.resetWith]
@[simp] theorem assertReset_seqRem (s : State) : (assertReset s).seqRem = 0x00#8 := by simp only [assertReset, State.resetWith]
@[simp] theorem assertReset_notes (s : State) : (assertReset s).notes = Vector.replicate 16 0x000#12 := by simp only [assertReset, State.resetWith]
@[simp] theorem assertReset_beatRun (s : State) : (assertReset s).beatRun = false := by simp only [assertReset, State.resetWith]
@[simp] theorem assertReset_bcnt (s : State) : (assertReset s).bcnt = 0x0000#16 := by simp only [assertReset, State.resetWith]
@[simp] theorem assertReset_rdata (s : State) : (assertReset s).rdata = none := by simp only [assertReset, State.resetWith]
@[simp] theorem assertReset_inputs (s : State) : (assertReset s).inputs = s.inputs := by simp only [assertReset, State.resetWith]
@[simp] theorem assertReset_freeCount (s : State) : (assertReset s).freeCount = s.freeCount := by simp only [assertReset, State.resetWith]

/-! `SETLEDS` (41_led.md R140) writes `LEDPORT` alone. -/

@[simp] theorem setLeds_cfg (k : KeyCode) (s : State) : (setLeds k s).cfg = s.cfg := by simp only [setLeds]
@[simp] theorem setLeds_toneCmp (k : KeyCode) (s : State) : (setLeds k s).toneCmp = s.toneCmp := by simp only [setLeds]
@[simp] theorem setLeds_toneCom (k : KeyCode) (s : State) : (setLeds k s).toneCom = s.toneCom := by simp only [setLeds]
@[simp] theorem setLeds_toneCs (k : KeyCode) (s : State) : (setLeds k s).toneCs = s.toneCs := by simp only [setLeds]
@[simp] theorem setLeds_spkAct (k : KeyCode) (s : State) : (setLeds k s).spkAct = s.spkAct := by simp only [setLeds]
@[simp] theorem setLeds_ocLvl (k : KeyCode) (s : State) : (setLeds k s).ocLvl = s.ocLvl := by simp only [setLeds]
@[simp] theorem setLeds_tcnt (k : KeyCode) (s : State) : (setLeds k s).tcnt = s.tcnt := by simp only [setLeds]
@[simp] theorem setLeds_keyin (k : KeyCode) (s : State) : (setLeds k s).keyin = s.keyin := by simp only [setLeds]
@[simp] theorem setLeds_keyIe (k : KeyCode) (s : State) : (setLeds k s).keyIe = s.keyIe := by simp only [setLeds]
@[simp] theorem setLeds_keyPend (k : KeyCode) (s : State) : (setLeds k s).keyPend = s.keyPend := by simp only [setLeds]
@[simp] theorem setLeds_beatPend (k : KeyCode) (s : State) : (setLeds k s).beatPend = s.beatPend := by simp only [setLeds]
@[simp] theorem setLeds_playing (k : KeyCode) (s : State) : (setLeds k s).playing = s.playing := by simp only [setLeds]
@[simp] theorem setLeds_seqIdx (k : KeyCode) (s : State) : (setLeds k s).seqIdx = s.seqIdx := by simp only [setLeds]
@[simp] theorem setLeds_seqRem (k : KeyCode) (s : State) : (setLeds k s).seqRem = s.seqRem := by simp only [setLeds]
@[simp] theorem setLeds_notes (k : KeyCode) (s : State) : (setLeds k s).notes = s.notes := by simp only [setLeds]
@[simp] theorem setLeds_beatRun (k : KeyCode) (s : State) : (setLeds k s).beatRun = s.beatRun := by simp only [setLeds]
@[simp] theorem setLeds_bcnt (k : KeyCode) (s : State) : (setLeds k s).bcnt = s.bcnt := by simp only [setLeds]
@[simp] theorem setLeds_rdata (k : KeyCode) (s : State) : (setLeds k s).rdata = s.rdata := by simp only [setLeds]
@[simp] theorem setLeds_inputs (k : KeyCode) (s : State) : (setLeds k s).inputs = s.inputs := by simp only [setLeds]
@[simp] theorem setLeds_freeCount (k : KeyCode) (s : State) : (setLeds k s).freeCount = s.freeCount := by simp only [setLeds]

/-! `SETTONE` (40_tone.md R125) writes the four tone fields alone. -/

@[simp] theorem setTone_cfg (k : KeyCode) (s : State) : (setTone k s).cfg = s.cfg := by
  unfold setTone; split <;> [rfl; (split <;> rfl)]
@[simp] theorem setTone_ocLvl (k : KeyCode) (s : State) : (setTone k s).ocLvl = s.ocLvl := by
  unfold setTone; split <;> [rfl; (split <;> rfl)]
@[simp] theorem setTone_tcnt (k : KeyCode) (s : State) : (setTone k s).tcnt = s.tcnt := by
  unfold setTone; split <;> [rfl; (split <;> rfl)]
@[simp] theorem setTone_ledport (k : KeyCode) (s : State) : (setTone k s).ledport = s.ledport := by
  unfold setTone; split <;> [rfl; (split <;> rfl)]
@[simp] theorem setTone_keyin (k : KeyCode) (s : State) : (setTone k s).keyin = s.keyin := by
  unfold setTone; split <;> [rfl; (split <;> rfl)]
@[simp] theorem setTone_keyIe (k : KeyCode) (s : State) : (setTone k s).keyIe = s.keyIe := by
  unfold setTone; split <;> [rfl; (split <;> rfl)]
@[simp] theorem setTone_keyPend (k : KeyCode) (s : State) : (setTone k s).keyPend = s.keyPend := by
  unfold setTone; split <;> [rfl; (split <;> rfl)]
@[simp] theorem setTone_beatPend (k : KeyCode) (s : State) : (setTone k s).beatPend = s.beatPend := by
  unfold setTone; split <;> [rfl; (split <;> rfl)]
@[simp] theorem setTone_playing (k : KeyCode) (s : State) : (setTone k s).playing = s.playing := by
  unfold setTone; split <;> [rfl; (split <;> rfl)]
@[simp] theorem setTone_seqIdx (k : KeyCode) (s : State) : (setTone k s).seqIdx = s.seqIdx := by
  unfold setTone; split <;> [rfl; (split <;> rfl)]
@[simp] theorem setTone_seqRem (k : KeyCode) (s : State) : (setTone k s).seqRem = s.seqRem := by
  unfold setTone; split <;> [rfl; (split <;> rfl)]
@[simp] theorem setTone_notes (k : KeyCode) (s : State) : (setTone k s).notes = s.notes := by
  unfold setTone; split <;> [rfl; (split <;> rfl)]
@[simp] theorem setTone_beatRun (k : KeyCode) (s : State) : (setTone k s).beatRun = s.beatRun := by
  unfold setTone; split <;> [rfl; (split <;> rfl)]
@[simp] theorem setTone_bcnt (k : KeyCode) (s : State) : (setTone k s).bcnt = s.bcnt := by
  unfold setTone; split <;> [rfl; (split <;> rfl)]
@[simp] theorem setTone_rdata (k : KeyCode) (s : State) : (setTone k s).rdata = s.rdata := by
  unfold setTone; split <;> [rfl; (split <;> rfl)]
@[simp] theorem setTone_inputs (k : KeyCode) (s : State) : (setTone k s).inputs = s.inputs := by
  unfold setTone; split <;> [rfl; (split <;> rfl)]
@[simp] theorem setTone_freeCount (k : KeyCode) (s : State) : (setTone k s).freeCount = s.freeCount := by
  unfold setTone; split <;> [rfl; (split <;> rfl)]

/-! Each key line's move (42_keys.md R153) writes `KEY_PEND` alone. -/

@[simp] theorem noteLineChange_cfg (v : Lines) (j : Fin 4) (s : State) : (noteLineChange v j s).cfg = s.cfg := by
  unfold noteLineChange; split <;> rfl
@[simp] theorem noteLineChange_toneCmp (v : Lines) (j : Fin 4) (s : State) : (noteLineChange v j s).toneCmp = s.toneCmp := by
  unfold noteLineChange; split <;> rfl
@[simp] theorem noteLineChange_toneCom (v : Lines) (j : Fin 4) (s : State) : (noteLineChange v j s).toneCom = s.toneCom := by
  unfold noteLineChange; split <;> rfl
@[simp] theorem noteLineChange_toneCs (v : Lines) (j : Fin 4) (s : State) : (noteLineChange v j s).toneCs = s.toneCs := by
  unfold noteLineChange; split <;> rfl
@[simp] theorem noteLineChange_spkAct (v : Lines) (j : Fin 4) (s : State) : (noteLineChange v j s).spkAct = s.spkAct := by
  unfold noteLineChange; split <;> rfl
@[simp] theorem noteLineChange_ocLvl (v : Lines) (j : Fin 4) (s : State) : (noteLineChange v j s).ocLvl = s.ocLvl := by
  unfold noteLineChange; split <;> rfl
@[simp] theorem noteLineChange_tcnt (v : Lines) (j : Fin 4) (s : State) : (noteLineChange v j s).tcnt = s.tcnt := by
  unfold noteLineChange; split <;> rfl
@[simp] theorem noteLineChange_ledport (v : Lines) (j : Fin 4) (s : State) : (noteLineChange v j s).ledport = s.ledport := by
  unfold noteLineChange; split <;> rfl
@[simp] theorem noteLineChange_keyin (v : Lines) (j : Fin 4) (s : State) : (noteLineChange v j s).keyin = s.keyin := by
  unfold noteLineChange; split <;> rfl
@[simp] theorem noteLineChange_keyIe (v : Lines) (j : Fin 4) (s : State) : (noteLineChange v j s).keyIe = s.keyIe := by
  unfold noteLineChange; split <;> rfl
@[simp] theorem noteLineChange_beatPend (v : Lines) (j : Fin 4) (s : State) : (noteLineChange v j s).beatPend = s.beatPend := by
  unfold noteLineChange; split <;> rfl
@[simp] theorem noteLineChange_playing (v : Lines) (j : Fin 4) (s : State) : (noteLineChange v j s).playing = s.playing := by
  unfold noteLineChange; split <;> rfl
@[simp] theorem noteLineChange_seqIdx (v : Lines) (j : Fin 4) (s : State) : (noteLineChange v j s).seqIdx = s.seqIdx := by
  unfold noteLineChange; split <;> rfl
@[simp] theorem noteLineChange_seqRem (v : Lines) (j : Fin 4) (s : State) : (noteLineChange v j s).seqRem = s.seqRem := by
  unfold noteLineChange; split <;> rfl
@[simp] theorem noteLineChange_notes (v : Lines) (j : Fin 4) (s : State) : (noteLineChange v j s).notes = s.notes := by
  unfold noteLineChange; split <;> rfl
@[simp] theorem noteLineChange_beatRun (v : Lines) (j : Fin 4) (s : State) : (noteLineChange v j s).beatRun = s.beatRun := by
  unfold noteLineChange; split <;> rfl
@[simp] theorem noteLineChange_bcnt (v : Lines) (j : Fin 4) (s : State) : (noteLineChange v j s).bcnt = s.bcnt := by
  unfold noteLineChange; split <;> rfl
@[simp] theorem noteLineChange_rdata (v : Lines) (j : Fin 4) (s : State) : (noteLineChange v j s).rdata = s.rdata := by
  unfold noteLineChange; split <;> rfl
@[simp] theorem noteLineChange_inputs (v : Lines) (j : Fin 4) (s : State) : (noteLineChange v j s).inputs = s.inputs := by
  unfold noteLineChange; split <;> rfl
@[simp] theorem noteLineChange_freeCount (v : Lines) (j : Fin 4) (s : State) : (noteLineChange v j s).freeCount = s.freeCount := by
  unfold noteLineChange; split <;> rfl

/-! Entry to a handler (60_exceptions.md R205) writes a pending flag alone. -/

@[simp] theorem enterHandler_cfg (ev : EventId) (s : State) : (enterHandler ev s).cfg = s.cfg := by
  unfold enterHandler; split <;> rfl
@[simp] theorem enterHandler_toneCmp (ev : EventId) (s : State) : (enterHandler ev s).toneCmp = s.toneCmp := by
  unfold enterHandler; split <;> rfl
@[simp] theorem enterHandler_toneCom (ev : EventId) (s : State) : (enterHandler ev s).toneCom = s.toneCom := by
  unfold enterHandler; split <;> rfl
@[simp] theorem enterHandler_toneCs (ev : EventId) (s : State) : (enterHandler ev s).toneCs = s.toneCs := by
  unfold enterHandler; split <;> rfl
@[simp] theorem enterHandler_spkAct (ev : EventId) (s : State) : (enterHandler ev s).spkAct = s.spkAct := by
  unfold enterHandler; split <;> rfl
@[simp] theorem enterHandler_ocLvl (ev : EventId) (s : State) : (enterHandler ev s).ocLvl = s.ocLvl := by
  unfold enterHandler; split <;> rfl
@[simp] theorem enterHandler_tcnt (ev : EventId) (s : State) : (enterHandler ev s).tcnt = s.tcnt := by
  unfold enterHandler; split <;> rfl
@[simp] theorem enterHandler_ledport (ev : EventId) (s : State) : (enterHandler ev s).ledport = s.ledport := by
  unfold enterHandler; split <;> rfl
@[simp] theorem enterHandler_keyin (ev : EventId) (s : State) : (enterHandler ev s).keyin = s.keyin := by
  unfold enterHandler; split <;> rfl
@[simp] theorem enterHandler_keyIe (ev : EventId) (s : State) : (enterHandler ev s).keyIe = s.keyIe := by
  unfold enterHandler; split <;> rfl
@[simp] theorem enterHandler_playing (ev : EventId) (s : State) : (enterHandler ev s).playing = s.playing := by
  unfold enterHandler; split <;> rfl
@[simp] theorem enterHandler_seqIdx (ev : EventId) (s : State) : (enterHandler ev s).seqIdx = s.seqIdx := by
  unfold enterHandler; split <;> rfl
@[simp] theorem enterHandler_seqRem (ev : EventId) (s : State) : (enterHandler ev s).seqRem = s.seqRem := by
  unfold enterHandler; split <;> rfl
@[simp] theorem enterHandler_notes (ev : EventId) (s : State) : (enterHandler ev s).notes = s.notes := by
  unfold enterHandler; split <;> rfl
@[simp] theorem enterHandler_beatRun (ev : EventId) (s : State) : (enterHandler ev s).beatRun = s.beatRun := by
  unfold enterHandler; split <;> rfl
@[simp] theorem enterHandler_bcnt (ev : EventId) (s : State) : (enterHandler ev s).bcnt = s.bcnt := by
  unfold enterHandler; split <;> rfl
@[simp] theorem enterHandler_rdata (ev : EventId) (s : State) : (enterHandler ev s).rdata = s.rdata := by
  unfold enterHandler; split <;> rfl
@[simp] theorem enterHandler_inputs (ev : EventId) (s : State) : (enterHandler ev s).inputs = s.inputs := by
  unfold enterHandler; split <;> rfl
@[simp] theorem enterHandler_freeCount (ev : EventId) (s : State) : (enterHandler ev s).freeCount = s.freeCount := by
  unfold enterHandler; split <;> rfl

end Sys2Proof.Machine
end

