-- ==== Sys2Proof/Laws/Ops.lean ====
section
/-!
SUPPORT. What each shared operation does: bits, the tone and LED operations, key-line moves, handler entry.
-/

namespace Sys2Proof.Machine

/-! Bits. -/

theorem getLsbD_setBit {w : Nat} (v : BitVec w) (i j : Nat) (b : Bool) (hi : i < w) :
    (setBit v i b).getLsbD j = if i = j then b else v.getLsbD j := by
  unfold setBit
  by_cases h : i = j
  · subst h; cases b <;> simp [hi]
  · cases b <;> simp [BitVec.getLsbD_twoPow, h]
    intro h'
    exact BitVec.lt_of_getLsbD h'

theorem getLsbD_scan (c : Cfg) (v : Lines) (i : Fin 4) : (scan c v).getLsbD i.val = scanBit c v i := by
  unfold scan
  generalize scanBit c v = f
  match i with
  | 0 => cases f 0 <;> cases f 1 <;> cases f 2 <;> cases f 3 <;> rfl
  | 1 => cases f 0 <;> cases f 1 <;> cases f 2 <;> cases f 3 <;> rfl
  | 2 => cases f 0 <;> cases f 1 <;> cases f 2 <;> cases f 3 <;> rfl
  | 3 => cases f 0 <;> cases f 1 <;> cases f 2 <;> cases f 3 <;> rfl

/-! `SETTONE` (R125), one lemma for each branch. -/

theorem setTone_silence (s : State) :
    setTone 0#4 s = { s with toneCom := false, toneCs := false, spkAct := false } := rfl

theorem setTone_note (k : KeyCode) (s : State) (h1 : 1 ≤ k.toNat) (h : k.toNat < 14) :
    setTone k s =
      { s with toneCmp := s.cfg.freq[k.toNat], toneCom := true, toneCs := true, spkAct := true } := by
  have h0 : k ≠ 0#4 := by rintro rfl; simp at h1
  simp [setTone, h0, show k.toNat ≤ Config.kMax from Nat.le_of_lt_succ h, memReadFreq]

theorem setTone_invalid (k : KeyCode) (s : State) (h : 13 < k.toNat) : setTone k s = s := by
  have h0 : k ≠ 0#4 := by rintro rfl; simp at h
  simp [setTone, h0, show ¬ k.toNat ≤ Config.kMax from Nat.not_le.mpr h]

/-- The three kinds of key code (R6). -/
theorem keyCode_cases (k : KeyCode) : k = 0#4 ∨ (1 ≤ k.toNat ∧ k.toNat < 14) ∨ 13 < k.toNat := by
  by_cases h : k = 0#4
  · exact .inl h
  · have : k.toNat ≠ 0 := fun h' => h (BitVec.eq_of_toNat_eq h')
    omega

/-- `SETTONE` acts on the tone fields the same whatever the other fields are: it commutes with an update of them. -/
theorem setTone_comm (k : KeyCode) (s : State) (f : State → State) (hcfg : ∀ t, (f t).cfg = t.cfg)
    (hf : ∀ (t : State) c m a b, f { t with toneCmp := c, toneCom := m, toneCs := a, spkAct := b } =
      { f t with toneCmp := c, toneCom := m, toneCs := a, spkAct := b })
    (hc : (f s).toneCmp = s.toneCmp) : setTone k (f s) = f (setTone k s) := by
  obtain rfl | ⟨h1, h2⟩ | h := keyCode_cases k
  · rw [setTone_silence, setTone_silence]
    have := hf s s.toneCmp false false false
    simpa [hc] using this.symm
  · rw [setTone_note _ _ h1 h2, setTone_note _ _ h1 h2]
    have := hf s (s.cfg.freq[k.toNat]) true true true
    simpa [hcfg] using this.symm
  · rw [setTone_invalid _ _ h, setTone_invalid _ _ h]

theorem setTone_idem (k : KeyCode) (s : State) : setTone k (setTone k s) = setTone k s := by
  obtain rfl | ⟨h1, h2⟩ | h := keyCode_cases k
  · rfl
  · simp only [setTone_note _ _ h1 h2]
  · simp only [setTone_invalid _ _ h]

/-! `SETLEDS` (R140). -/

/-- The port that `SETLEDS k` leaves, bit by bit, for any `LED_MAP`: the last LED position that a bit carries decides. -/
theorem getLsbD_setLeds (k : KeyCode) (s : State) (j : Nat) :
    (setLeds k s).ledport.getLsbD j =
      if (s.cfg.ledMap[(3 : Fin 4)]).val = j then k.getLsbD 3
      else if (s.cfg.ledMap[(2 : Fin 4)]).val = j then k.getLsbD 2
      else if (s.cfg.ledMap[(1 : Fin 4)]).val = j then k.getLsbD 1
      else if (s.cfg.ledMap[(0 : Fin 4)]).val = j then k.getLsbD 0
      else s.ledport.getLsbD j := by
  simp [setLeds, routeLeds, writeLed, getLsbD_setBit, Fin.is_lt]

theorem setLeds_eq (k : KeyCode) (s : State) : setLeds k s = { s with ledport := (setLeds k s).ledport } := rfl

/-- The router as the pin writes of R140, in their order. -/
theorem setLeds_eq_setPins (k : KeyCode) (s : State) :
    setLeds k s = setPin (.led 3) (k.getLsbD 3) (setPin (.led 2) (k.getLsbD 2) (setPin (.led 1) (k.getLsbD 1)
      (setPin (.led 0) (k.getLsbD 0) s))) := by
  simp [setLeds, routeLeds]

/-- A bit that carries no LED is unchanged (R141, R142). -/
theorem setLeds_unrouted (k : KeyCode) (s : State) (j : Fin 8) (h : ∀ i : Fin 4, s.cfg.ledMap[i] ≠ j) :
    (setLeds k s).ledport.getLsbD j.val = s.ledport.getLsbD j.val := by
  have ne : ∀ i : Fin 4, (s.cfg.ledMap[i]).val ≠ j.val := fun i e => h i (Fin.ext e)
  rw [getLsbD_setLeds]
  rw [if_neg (ne 3), if_neg (ne 2), if_neg (ne 1), if_neg (ne 0)]

/-- The port after `SETLEDS k` depends on the port before only in the bits that carry no LED. -/
theorem setLeds_ledport_congr (k : KeyCode) (s t : State) (hc : s.cfg = t.cfg)
    (h : ∀ j : Fin 8, (∀ i : Fin 4, s.cfg.ledMap[i] ≠ j) → s.ledport.getLsbD j.val = t.ledport.getLsbD j.val) :
    (setLeds k s).ledport = (setLeds k t).ledport := by
  apply BitVec.eq_of_getLsbD_eq
  intro j hj
  rw [getLsbD_setLeds, getLsbD_setLeds, ← hc]
  split; · rfl
  split; · rfl
  split; · rfl
  split; · rfl
  rename_i h3 h2 h1 h0
  refine h ⟨j, hj⟩ fun i e => ?_
  have e' : (s.cfg.ledMap[i]).val = j := by rw [e]
  match i, e' with
  | 0, e' => exact h0 e'
  | 1, e' => exact h1 e'
  | 2, e' => exact h2 e'
  | 3, e' => exact h3 e'

/-- `SETLEDS` has no memory: only the last code shows (R140). -/
theorem setLeds_setLeds (k l : KeyCode) (s : State) : setLeds k (setLeds l s) = setLeds k s := by
  rw [setLeds_eq k (setLeds l s), setLeds_eq k s]
  rw [setLeds_ledport_congr k (setLeds l s) s rfl (fun j h => setLeds_unrouted l s j h)]
  rfl

/-- The tone and the LEDs are set independently of each other. -/
theorem setLeds_setTone (k l : KeyCode) (s : State) : setLeds k (setTone l s) = setTone l (setLeds k s) := by
  obtain rfl | ⟨h1, h2⟩ | h := keyCode_cases l
  · rfl
  · rw [setTone_note _ _ h1 h2, setTone_note _ _ h1 h2]; rfl
  · rw [setTone_invalid _ _ h, setTone_invalid _ _ h]

/-! Pending flags (R153, R204, R205). -/

theorem enterHandler_tick (s : State) : enterHandler 0b11#2 s = { s with beatPend := false } := rfl

theorem enterHandler_key (ev : EventId) (s : State) (h : ev ≠ 3#2) :
    enterHandler ev s = { s with keyPend := setBit s.keyPend ev.toNat false } := by
  simp [enterHandler, h]

theorem deliverable_tick (s : State) : deliverable 0b11#2 s = s.beatPend := rfl

theorem deliverable_key (ev : EventId) (s : State) (h : ev ≠ 3#2) :
    deliverable ev s = (s.keyPend.getLsbD ev.toNat && s.keyIe) := by
  simp [deliverable, h]

theorem noteLineChange_keyPend (v : Lines) (j : Fin 4) (s : State) (b : Fin 3) :
    (noteLineChange v j s).keyPend.getLsbD b.val =
      (s.keyPend.getLsbD b.val ||
        (decide (s.cfg.keyBank[j] = b) && (v.getLsbD j.val != s.keyin.getLsbD j.val))) := by
  unfold noteLineChange
  cases h : v.getLsbD j.val != s.keyin.getLsbD j.val
  · simp
  · simp only [Config.keyLatchWhileMasked, Bool.true_or, Bool.and_self, if_true, Bool.and_true]
    rw [getLsbD_setBit _ _ _ _ (Fin.is_lt _)]
    by_cases hb : s.cfg.keyBank[j] = b
    · simp [hb]
    · have : (s.cfg.keyBank[j]).val ≠ b.val := fun e => hb (Fin.ext e)
      simp only [hb, this, if_false, decide_false, Bool.or_false]

/-- The pending flags after the key lines have moved: a bank's flag is set if it was, or if a line of the bank changed
(R153). -/
theorem moveKeys_keyPend (v : Lines) (s : State) (b : Fin 3) :
    (moveKeys v s).keyPend.getLsbD b.val =
      (s.keyPend.getLsbD b.val ||
        decide (∃ j : Fin 4, s.cfg.keyBank[j] = b ∧ v.getLsbD j.val ≠ s.keyin.getLsbD j.val)) := by
  have step : (moveKeys v s).keyPend.getLsbD b.val =
      (noteLineChange v 3 (noteLineChange v 2 (noteLineChange v 1 (noteLineChange v 0 s)))).keyPend.getLsbD b.val := rfl
  rw [step]
  simp only [noteLineChange_keyPend, noteLineChange_cfg, noteLineChange_keyin]
  cases s.keyPend.getLsbD b.val
  · rw [Bool.eq_iff_iff]
    simp [Fin.exists_fin_succ, or_assoc]
  · simp

end Sys2Proof.Machine
end

