-- ==== Sys2Proof/Laws/Sequencer.lean ====
section
/-!
SUPPORT. What the sequencer's operations do: the copy of the script, the branches of `SEQSTART` and of `TICK`.
-/

namespace Sys2Proof.Machine

/-! The buffer. -/

/-- A read of the entry just written gives the value written, and every other entry is as before (R68). -/
theorem memWriteNotes_get (i : NoteIndex) (v : Note) (notes : Vector Note 16) (j : Nat) (hj : j < 16) :
    (memWriteNotes i v notes)[j] = if i.toNat = j then v else notes[j] := by
  unfold memWriteNotes
  rw [Vector.getElem_set]

/-- Below the script's length no entry is a sentinel. -/
theorem not_isSentinel_of_lt (c : Cfg) (i : NoteIndex) (h : i.toNat < scriptLength c) :
    isSentinel (memReadScript c i) = false := by
  have hi : i.toNat < c.script.toList.length := by simpa using i.isLt
  have := List.not_of_lt_findIdx (p := isSentinel) (xs := c.script.toList) h
  simpa [memReadScript] using this

/-- The entry at the script's length is a sentinel. -/
theorem isSentinel_at_length (c : Cfg) (i : NoteIndex) (h : i.toNat = scriptLength c) :
    isSentinel (memReadScript c i) = true := by
  have hi : c.script.toList.findIdx isSentinel < c.script.toList.length := by
    have : scriptLength c < 16 := h ▸ i.isLt
    simpa [scriptLength] using this
  have := List.findIdx_getElem (p := isSentinel) (w := hi)
  have e : memReadScript c i = c.script.toList[c.script.toList.findIdx isSentinel] := by
    simp only [memReadScript, Vector.getElem_toList]
    congr 1
  rw [e]; exact this

theorem scriptLength_le (c : Cfg) : scriptLength c ≤ 16 := by
  have := List.findIdx_le_length (p := isSentinel) (xs := c.script.toList)
  simpa [scriptLength] using this

/-- The copy loop over the last `n` entries: what lies below is as before, and entry `j` is the script's if no sentinel
was seen up to and including it. -/
theorem copyEntries_get (c : Cfg) (n : Nat) (hn : n ≤ 16) (ended : Bool) (notes : Vector Note 16)
    (hended : ended = true ↔ scriptLength c < 16 - n) (j : Nat) (hj : j < 16) :
    (copyEntries c n ended notes)[j] =
      if j < 16 - n then notes[j] else if j < scriptLength c then c.script[j] else 0x000#12 := by
  induction n generalizing ended notes with
  | zero => simp [copyEntries, hj]
  | succ n ih =>
    have hi : (BitVec.ofNat 4 (15 - n)).toNat = 15 - n := by simp; omega
    have hs : (ended || isSentinel (memReadScript c (BitVec.ofNat 4 (15 - n)))) = true ↔
        scriptLength c < 16 - n := by
      rw [Bool.or_eq_true, hended]
      constructor
      · rintro (h | h)
        · omega
        · by_contra hc
          have := not_isSentinel_of_lt c (BitVec.ofNat 4 (15 - n)) (by omega)
          rw [this] at h; cases h
      · intro h
        by_cases hlt : scriptLength c < 16 - (n + 1)
        · exact .inl hlt
        · exact .inr (isSentinel_at_length c _ (by omega))
    simp only [copyEntries]
    rw [ih (by omega) _ _ hs]
    by_cases h1 : j < 16 - (n + 1)
    · rw [if_pos (by omega), if_pos h1, memWriteNotes_get, if_neg (by omega)]
    · rw [if_neg h1]
      by_cases h2 : j < 16 - n
      · have hj' : j = 15 - n := by omega
        rw [if_pos h2, memWriteNotes_get, if_pos (by omega)]
        by_cases h3 : scriptLength c < 16 - n
        · rw [if_pos (hs.mpr h3), if_neg (by omega)]
        · rw [if_neg (fun h => h3 (hs.mp h)), if_pos (by omega)]
          simp only [memReadScript, hi, hj']
      · rw [if_neg h2]

/-- The buffer after the copy (R168). -/
theorem copyScript_get (s : State) (j : Nat) (hj : j < 16) :
    (copyScript s).notes[j] = if j < scriptLength s.cfg then s.cfg.script[j] else 0x000#12 := by
  have := copyEntries_get s.cfg 16 (Nat.le_refl 16) false s.notes (by simp) j hj
  simpa using this

theorem memReadNotes_copyScript (s : State) (i : NoteIndex) :
    memReadNotes (copyScript s) i = if i.toNat < scriptLength s.cfg then memReadScript s.cfg i else 0x000#12 := by
  unfold memReadNotes memReadScript
  exact copyScript_get s i.toNat i.isLt

theorem isSentinel_zero : isSentinel 0x000#12 = true := by decide

/-! `SEQSTART` (R167). -/

theorem seqStart_playing (s : State) (h : s.playing = true) : seqStart s = s := by simp [seqStart, h]

theorem seqStart_empty (s : State) (h : isSentinel (memReadScript s.cfg 0#4) = true) : seqStart s = s := by
  simp [seqStart, h]

theorem seqStart_accepted (s : State) (hp : s.playing = false)
    (h : isSentinel (memReadScript s.cfg 0#4) = false) : seqStart s = startPlayback s := by
  simp [seqStart, hp, h]

/-- The first note of an accepted script is the script's entry 0. -/
theorem copyScript_first (s : State) (h : isSentinel (memReadScript s.cfg 0#4) = false) :
    memReadNotes (copyScript s) 0#4 = memReadScript s.cfg 0#4 := by
  rw [memReadNotes_copyScript, if_pos]
  by_contra hc
  have : isSentinel (memReadScript s.cfg 0#4) = true :=
    isSentinel_at_length s.cfg 0#4 (by rw [BitVec.toNat_zero] at hc ⊢; omega)
  rw [this] at h; cases h

/-! `TICK` (R169, R170). -/

theorem tick_idle (s : State) (h : s.playing = false) : tick s = { s with beatPend := false } := by
  simp [tick, beatTick, enterHandler_tick, h]

theorem tick_countdown (s : State) (h : s.playing = true) (hr : 2#8 ≤ s.seqRem) :
    tick s = { s with beatPend := false, seqRem := s.seqRem - 1#8 } := by
  simp [tick, beatTick, enterHandler_tick, h, hr]

theorem tick_next (s : State) (h : s.playing = true) (hr : ¬ 2#8 ≤ s.seqRem)
    (hn : isSentinel (memReadNotes s (s.seqIdx + 1#4)) = false) :
    tick s =
      setLeds (noteCode (memReadNotes s (s.seqIdx + 1#4))) (setTone (noteCode (memReadNotes s (s.seqIdx + 1#4)))
        { s with beatPend := false, seqIdx := s.seqIdx + 1#4,
                 seqRem := noteDur (memReadNotes s (s.seqIdx + 1#4)) }) := by
  simp only [tick, beatTick, enterHandler_tick, h, hr, advanceNote, returnFromHandler_eq]
  simp only [Bool.not_true, Bool.false_eq_true, if_false]
  rw [if_neg (by simpa [memReadNotes] using hn)]
  rfl

theorem tick_stop (s : State) (h : s.playing = true) (hr : ¬ 2#8 ≤ s.seqRem)
    (hn : isSentinel (memReadNotes s (s.seqIdx + 1#4)) = true) :
    tick s =
      setLeds 0#4 (setTone 0#4
        { s with beatPend := false, seqIdx := s.seqIdx + 1#4, seqRem := 0x00#8, beatRun := false, keyIe := true,
                 playing := false }) := by
  simp only [tick, beatTick, enterHandler_tick, h, hr, advanceNote, returnFromHandler_eq]
  simp only [Bool.not_true, Bool.false_eq_true, if_false]
  rw [if_pos (by simpa [memReadNotes] using hn)]
  rfl

/-- The four cases of `TICK`. -/
theorem tick_cases (s : State) :
    (s.playing = false ∧ tick s = { s with beatPend := false }) ∨
    (s.playing = true ∧ 2#8 ≤ s.seqRem ∧ tick s = { s with beatPend := false, seqRem := s.seqRem - 1#8 }) ∨
    (s.playing = true ∧ ¬ 2#8 ≤ s.seqRem ∧ isSentinel (memReadNotes s (s.seqIdx + 1#4)) = false ∧
      tick s =
        setLeds (noteCode (memReadNotes s (s.seqIdx + 1#4))) (setTone (noteCode (memReadNotes s (s.seqIdx + 1#4)))
          { s with beatPend := false, seqIdx := s.seqIdx + 1#4,
                   seqRem := noteDur (memReadNotes s (s.seqIdx + 1#4)) })) ∨
    (s.playing = true ∧ ¬ 2#8 ≤ s.seqRem ∧ isSentinel (memReadNotes s (s.seqIdx + 1#4)) = true ∧
      tick s =
        setLeds 0#4 (setTone 0#4
          { s with beatPend := false, seqIdx := s.seqIdx + 1#4, seqRem := 0x00#8, beatRun := false, keyIe := true,
                   playing := false })) := by
  by_cases h : s.playing = true
  · by_cases hr : 2#8 ≤ s.seqRem
    · exact .inr (.inl ⟨h, hr, tick_countdown s h hr⟩)
    · by_cases hn : isSentinel (memReadNotes s (s.seqIdx + 1#4)) = true
      · exact .inr (.inr (.inr ⟨h, hr, hn, tick_stop s h hr hn⟩))
      · have hn' := Bool.eq_false_iff.mpr hn
        exact .inr (.inr (.inl ⟨h, hr, hn', tick_next s h hr hn'⟩))
  · have h' := Bool.eq_false_iff.mpr h
    exact .inl ⟨h', tick_idle s h'⟩

end Sys2Proof.Machine
end

