-- ==== Sys2Proof/Laws/Step.lean ====
section
/-!
SUPPORT. What a step can do, said once: every next state is one of the cases below, and later proofs go by them.
-/

namespace Sys2Proof.Machine

theorem step_listed {s : State} {a : AgentStep} {rest : List AgentStep} (h : s.inputs = a :: rest) :
    step s = takeAgentStep a rest s := by
  simp [step, h]

theorem step_free {s : State} (h : s.inputs = []) : step s = freeStep s := by
  simp [step, h]

/-- The step of a listed agent answers a next state exactly when it is enabled, and then its effect's. -/
theorem takeAgentStep_next_iff (a : AgentStep) (rest : List AgentStep) (s t : State) :
    takeAgentStep a rest s = .next t ↔
      stepEnabled a s = true ∧ performAgent a (beginStep rest s) = .next t := by
  unfold takeAgentStep
  cases stepEnabled a s <;> simp

/-- Enabledness does not depend on what every step does beside its agent's effect. -/
theorem stepEnabled_beginStep (a : AgentStep) (rest : List AgentStep) (s : State) :
    stepEnabled a (beginStep rest s) = stepEnabled a s := by
  cases a <;> rfl

theorem decodeEvent_key (ev : EventId) (h : ev ≠ 3#2) (s : State) :
    exec (decodeEvent ev) s = .next (keyChange ev s) := by
  have : ev = 0#2 ∨ ev = 1#2 ∨ ev = 2#2 := by revert h; revert ev; decide
  obtain rfl | rfl | rfl := this <;> rfl

theorem decodeEvent_tick (s : State) : exec (decodeEvent 3#2) s = .next (tick s) := rfl

/-- What an enabled agent's step can do: the operation that the label names, and nothing else. -/
theorem performAgent_cases {a : AgentStep} {s t : State} (h : performAgent a s = .next t) :
    (∃ cw k, a = .host cw ∧ decodeCommand cw = .setTone k ∧ t = driveRdata 0x0000#16 (setTone k s)) ∨
    (∃ cw k, a = .host cw ∧ decodeCommand cw = .setLeds k ∧ t = driveRdata 0x0000#16 (setLeds k s)) ∨
    (∃ cw arg, a = .host cw ∧ decodeCommand cw = .seqStart arg ∧ t = driveRdata 0x0000#16 (seqStart s)) ∨
    (∃ cw v, a = .host cw ∧ (∀ k, decodeCommand cw ≠ .setTone k) ∧ (∀ k, decodeCommand cw ≠ .setLeds k) ∧
      (∀ arg, decodeCommand cw ≠ .seqStart arg) ∧ t = driveRdata v s) ∨
    (∃ ev, a = .arb ev ∧ ev ≠ 3#2 ∧ t = keyChange ev s) ∨
    (a = .arb 3#2 ∧ t = tick s) ∨
    (∃ v, a = .keys v ∧ t = moveKeys v s) ∨
    (a = .tclk ∧ t = tclk s) ∨
    (a = .bclk ∧ t = bclk s) ∨
    (a = .rst ∧ t = assertReset s) := by
  cases a with
  | host cw =>
    have ne : ∀ ev, decodeCommand cw ≠ decodeEvent ev := by
      intro ev e
      have h1 : (decodeCommand cw).row ≠ (decodeEvent ev).row := by
        have : ∀ (cw : CommandWord) (ev : EventId), (decodeCommand cw).row ≠ (decodeEvent ev).row := by decide
        exact this cw ev
      exact h1 (by rw [e])
    simp only [performAgent] at h
    cases hd : decodeCommand cw with
    | setTone k => rw [hd] at h; cases h; exact .inl ⟨cw, k, rfl, hd, rfl⟩
    | setLeds k => rw [hd] at h; cases h; exact .inr (.inl ⟨cw, k, rfl, hd, rfl⟩)
    | seqStart arg => rw [hd] at h; cases h; exact .inr (.inr (.inl ⟨cw, arg, rfl, hd, rfl⟩))
    | scanKeys arg => rw [hd] at h; cases h; exact .inr (.inr (.inr (.inl ⟨cw, _, rfl, by simp [hd], by simp [hd], by simp [hd], rfl⟩)))
    | rdReg r => rw [hd] at h; cases h; exact .inr (.inr (.inr (.inl ⟨cw, _, rfl, by simp [hd], by simp [hd], by simp [hd], rfl⟩)))
    | rdNote i => rw [hd] at h; cases h; exact .inr (.inr (.inr (.inl ⟨cw, _, rfl, by simp [hd], by simp [hd], by simp [hd], rfl⟩)))
    | rdFreq k => rw [hd] at h; cases h; exact .inr (.inr (.inr (.inl ⟨cw, _, rfl, by simp [hd], by simp [hd], by simp [hd], rfl⟩)))
    | reservedOp0 arg => rw [hd] at h; cases h; exact .inr (.inr (.inr (.inl ⟨cw, _, rfl, by simp [hd], by simp [hd], by simp [hd], rfl⟩)))
    | reservedOp8F op arg => rw [hd] at h; cases h; exact .inr (.inr (.inr (.inl ⟨cw, _, rfl, by simp [hd], by simp [hd], by simp [hd], rfl⟩)))
    | keyChg0 => exact absurd hd (ne 0#2)
    | keyChg1 => exact absurd hd (ne 1#2)
    | keyChg2 => exact absurd hd (ne 2#2)
    | tick => exact absurd hd (ne 3#2)
  | keys v => cases h; exact .inr (.inr (.inr (.inr (.inr (.inr (.inl ⟨v, rfl, rfl⟩))))))
  | arb ev =>
    simp only [performAgent] at h
    by_cases he : ev = 3#2
    · subst he; rw [decodeEvent_tick] at h; cases h
      exact .inr (.inr (.inr (.inr (.inr (.inl ⟨rfl, rfl⟩)))))
    · rw [decodeEvent_key ev he] at h; cases h
      exact .inr (.inr (.inr (.inr (.inl ⟨ev, rfl, he, rfl⟩))))
  | tclk => cases h; exact .inr (.inr (.inr (.inr (.inr (.inr (.inr (.inl ⟨rfl, rfl⟩)))))))
  | bclk => cases h; exact .inr (.inr (.inr (.inr (.inr (.inr (.inr (.inr (.inl ⟨rfl, rfl⟩))))))))
  | rst => cases h; exact .inr (.inr (.inr (.inr (.inr (.inr (.inr (.inr (.inr ⟨rfl, rfl⟩))))))))

/-- A next state of `step` is that of an enabled agent's effect, or of a free choice that passes. -/
theorem step_next_cases {s t : State} (h : step s = .next t) :
    (∃ a rest, stepEnabled a s = true ∧ performAgent a (beginStep rest s) = .next t) ∨
    (s.inputs = [] ∧ t = beginStep [] s) := by
  cases hi : s.inputs with
  | nil =>
    rw [step_free hi, freeStep] at h
    cases he : stepEnabled (Config.agentChoice s.freeCount) s
    · simp only [he, Bool.false_eq_true, if_false] at h
      cases h; exact .inr ⟨rfl, rfl⟩
    · simp only [he, if_true] at h
      exact .inl ⟨_, [], he, h⟩
  | cons a rest =>
    rw [step_listed hi] at h
    exact .inl ⟨a, rest, (takeAgentStep_next_iff a rest s t).mp h⟩

/-- An induction over a trace, packaged once: what an enabled step of every agent keeps holds at the end of every run. -/
theorem runTrace_keeps (P : State → Prop)
    (keep : ∀ a rest s t, P s → takeAgentStep a rest s = .next t → P t) :
    ∀ (as : List AgentStep) (s t : State), P s → runTrace as s = .next t → P t := by
  intro as
  induction as with
  | nil => intro s t hs h; cases h; exact hs
  | cons a rest ih =>
    intro s t hs h
    simp only [runTrace] at h
    split at h
    · rename_i s' h'
      exact ih s' t (keep a rest s s' hs h') h
    · cases h
    · cases h

end Sys2Proof.Machine
end

