-- ==== Sys2Proof/Laws/ClockFree.lean ====
section
/-!
SUPPORT. The abstraction that drops the clocks (60_exceptions.md R212).
-/

namespace Sys2Proof.Machine

@[simp] theorem forgetClocks_rdata (s : State) : (forgetClocks s).rdata = s.rdata := rfl
@[simp] theorem forgetClocks_cfg (s : State) : (forgetClocks s).cfg = s.cfg := rfl
@[simp] theorem forgetClocks_keyin (s : State) : (forgetClocks s).keyin = s.keyin := rfl
@[simp] theorem forgetClocks_beatRun (s : State) : (forgetClocks s).beatRun = s.beatRun := rfl
@[simp] theorem forgetClocks_forgetClocks (s : State) : forgetClocks (forgetClocks s) = forgetClocks s := rfl
@[simp] theorem forgetClocks_withDropped (d : Dropped) (s : State) : forgetClocks (withDropped d s) = forgetClocks s := rfl
@[simp] theorem droppedOf_withDropped (d : Dropped) (s : State) : droppedOf (withDropped d s) = d := rfl

/-- Putting the dropped values back gives the state with the model's list and counter empty. -/
theorem withDropped_forgetClocks (s : State) :
    withDropped (droppedOf s) (forgetClocks s) = { s with inputs := [], freeCount := 0 } := rfl

/-- The effect of the block without clocks, where its agent is enabled. -/
theorem clockFreeStep_next {d : Dropped} {a : AgentStep} {s t : State} (he : clockFreeEnabled a s = true)
    (h : performAgent a { withDropped d s with rdata := none } = .next t) :
    clockFreeStep d a s = .next (forgetClocks t) := by
  simp [clockFreeStep, he, h]

theorem clockFreeRun_cons {d : Dropped} {a : AgentStep} {rest : List (Dropped × AgentStep)} {s t : State}
    (h : clockFreeStep d a s = .next t) : clockFreeRun ((d, a) :: rest) s = clockFreeRun rest t := by
  simp [clockFreeRun, h]

/-- No clock edge is a step of the block without clocks. -/
theorem clockFreeStep_clockEdge {a : AgentStep} (h : isClockEdge a = true) (d : Dropped) (s : State) :
    clockFreeStep d a s = .refused (.notEnabled a) := by
  cases a <;> first | rfl | cases h

end Sys2Proof.Machine
end

