-- ==== Sys2Proof/Laws/Past.lean ====
section
/-!
SUPPORT. The past of a run (70_reset_and_hazards.md R257), and the inductions over a run that is accompanied by it.
-/

namespace Sys2Proof.Machine

@[simp] theorem Past.after_toneAtStart (h : Past) (a : AgentStep) (s t : State) :
    (h.after a s t).toneAtStart = if s.playing then h.toneAtStart else toneFields s := rfl
@[simp] theorem Past.after_highestCompare (h : Past) (a : AgentStep) (s t : State) :
    (h.after a s t).highestCompare = max h.highestCompare t.toneCmp.toNat := rfl
@[simp] theorem Past.after_copied (h : Past) (a : AgentStep) (s t : State) :
    (h.after a s t).copied = (!(a == .rst) && (h.copied || (!s.playing && t.playing))) := rfl
@[simp] theorem toneFields_beginStep (rest : List AgentStep) (s : State) :
    toneFields (beginStep rest s) = toneFields s := rfl

/-- The tone fields are those of another state exactly if the four agree. -/
theorem toneFields_eq_iff (s t : State) :
    toneFields t = toneFields s ↔
      t.toneCmp = s.toneCmp ∧ t.toneCom = s.toneCom ∧ t.toneCs = s.toneCs ∧ t.spkAct = s.spkAct := by
  simp [toneFields]

@[simp] theorem toneFields_withToneFields (f : ToneFields) (s : State) : toneFields (withToneFields f s) = f := rfl
@[simp] theorem withToneFields_toneFields (s : State) : withToneFields (toneFields s) s = s := rfl
@[simp] theorem withToneFields_cfg (f : ToneFields) (s : State) : (withToneFields f s).cfg = s.cfg := rfl

/-- What `SETTONE` leaves of the tone fields depends on the configuration and on the tone fields alone (R125). -/
theorem toneFields_setTone_congr (k : KeyCode) {s t : State} (hc : t.cfg = s.cfg) (hf : toneFields t = toneFields s) :
    toneFields (setTone k t) = toneFields (setTone k s) := by
  obtain ⟨h1, h2, h3, h4⟩ := (toneFields_eq_iff s t).mp hf
  simp only [toneFields_eq_iff]
  obtain rfl | ⟨a, b⟩ | h := keyCode_cases k
  · simp [setTone_silence, h1]
  · simp [setTone_note _ _ a b, hc]
  · simp [setTone_invalid _ _ h, h1, h2, h3, h4]

theorem toneLeftBy_congr {s t : State} (start : ToneFields) (hc : t.cfg = s.cfg) (hn : t.notes = s.notes) (n : Nat) :
    toneLeftBy t start n = toneLeftBy s start n := by
  have hm : ∀ i, memReadNotes t i = memReadNotes s i := fun i => by simp only [memReadNotes, hn]
  have hs : ∀ f k, toneFields (setTone k (withToneFields f t)) = toneFields (setTone k (withToneFields f s)) :=
    fun f k => toneFields_setTone_congr k (s := withToneFields f s) (t := withToneFields f t) hc rfl
  induction n with
  | zero => simp only [toneLeftBy, hm, hs]
  | succ n ih => simp only [toneLeftBy, hm, hs, ih]

/-- Where no note up to the current one has a code at most 13, the notes leave the tone fields as they were. -/
theorem toneLeftBy_of_none {s : State} (start : ToneFields) {n : Nat} (h : latestToneCode s n = none) :
    toneLeftBy s start n = start := by
  induction n with
  | zero =>
    rw [latestToneCode, ite_eq_right_iff] at h
    rw [toneLeftBy, setTone_invalid _ _ (Nat.lt_of_not_le fun hle => nomatch h hle), toneFields_withToneFields]
  | succ n ih =>
    by_cases hle : (noteCode (memReadNotes s (BitVec.ofNat 4 (n + 1)))).toNat ≤ Config.kMax
    · rw [latestToneCode, if_pos hle] at h; cases h
    · rw [latestToneCode, if_neg hle] at h
      rw [toneLeftBy, setTone_invalid _ _ (Nat.lt_of_not_le hle), toneFields_withToneFields, ih h]

theorem Past.along_cons {a : AgentStep} {rest : List AgentStep} {s t : State} (h : Past)
    (ht : takeAgentStep a rest s = .next t) : h.along (a :: rest) s = (h.after a s t).along rest t := by
  simp [Past.along, ht]

theorem runKeepsHandsOff_cons {a : AgentStep} {rest : List AgentStep} {s t : State}
    (ht : takeAgentStep a rest s = .next t) :
    runKeepsHandsOff (a :: rest) s = (keepsHandsOff a s && runKeepsHandsOff rest t) := by
  simp [runKeepsHandsOff, ht]

/-- A run of at least one step that answers a next state takes its first step. -/
theorem runTrace_cons_next {a : AgentStep} {rest : List AgentStep} {s u : State}
    (h : runTrace (a :: rest) s = .next u) : ∃ t, takeAgentStep a rest s = .next t ∧ runTrace rest t = .next u := by
  simp only [runTrace] at h
  split at h
  · rename_i t ht; exact ⟨t, ht, h⟩
  · cases h
  · cases h

/-- What every step keeps of a state and its past holds at the end of every run. -/
theorem runTrace_keeps_past (P : Past → State → Prop)
    (keep : ∀ a rest h s t, P h s → takeAgentStep a rest s = .next t → P (h.after a s t) t) :
    ∀ (as : List AgentStep) (h : Past) (s u : State), P h s → runTrace as s = .next u → P (h.along as s) u := by
  intro as
  induction as with
  | nil => intro h s u hs hr; cases hr; exact hs
  | cons a rest ih =>
    intro h s u hs hr
    obtain ⟨t, ht, hr⟩ := runTrace_cons_next hr
    rw [Past.along_cons h ht]
    exact ih _ t u (keep a rest h s t hs ht) hr

/-- The same for what the steps keep that meet the proviso of R257, over a run that meets it. -/
theorem runTrace_keeps_past_handsOff (P : Past → State → Prop)
    (keep : ∀ a rest h s t, P h s → keepsHandsOff a s = true → takeAgentStep a rest s = .next t →
      P (h.after a s t) t) :
    ∀ (as : List AgentStep) (h : Past) (s u : State), P h s → runKeepsHandsOff as s = true →
      runTrace as s = .next u → P (h.along as s) u := by
  intro as
  induction as with
  | nil => intro h s u hs _ hr; cases hr; exact hs
  | cons a rest ih =>
    intro h s u hs hk hr
    obtain ⟨t, ht, hr⟩ := runTrace_cons_next hr
    rw [runKeepsHandsOff_cons ht, Bool.and_eq_true] at hk
    rw [Past.along_cons h ht]
    exact ih _ t u (keep a rest h s t hs hk.1 ht) hk.2 hr

end Sys2Proof.Machine
end

