-- ==== Sys2Proof/Laws/PerInstr.lean ====
section
/-!
SUPPORT. For every constructor of `Instr`: its encoding lies in its own row of the opcode table (30_encoding.md R93, R95,
R97).
-/

namespace Sys2Proof.Laws.TableRow

/-- The encoding of a well-formed operation is admitted by its own row. -/
def Statement (i : Instr) : Prop := i.wellFormed = true → i.row.admits (encode i) = true

theorem setTone (k : KeyCode) : Statement (.setTone k) := by
  unfold Statement; revert k; decide

theorem setLeds (k : KeyCode) : Statement (.setLeds k) := by
  unfold Statement; revert k; decide

theorem scanKeys (arg : Arg) : Statement (.scanKeys arg) := by
  unfold Statement; revert arg; decide

theorem seqStart (arg : Arg) : Statement (.seqStart arg) := by
  unfold Statement; revert arg; decide

theorem rdReg (r : Arg) : Statement (.rdReg r) := by
  unfold Statement; revert r; decide

theorem rdNote (i : NoteIndex) : Statement (.rdNote i) := by
  unfold Statement; revert i; decide

theorem rdFreq (k : KeyCode) : Statement (.rdFreq k) := by
  unfold Statement; revert k; decide

theorem reservedOp0 (arg : Arg) : Statement (.reservedOp0 arg) := by
  unfold Statement; revert arg; decide

theorem reservedOp8F (op : BitVec 4) (arg : Arg) : Statement (.reservedOp8F op arg) := by
  unfold Statement; revert op arg; decide

theorem keyChg0 : Statement .keyChg0 := fun _ => rfl

theorem keyChg1 : Statement .keyChg1 := fun _ => rfl

theorem keyChg2 : Statement .keyChg2 := fun _ => rfl

theorem tick : Statement .tick := fun _ => rfl

end Sys2Proof.Laws.TableRow
end

