-- ==== Sys2Proof/Tests/Slice0.lean ====
section
/-!
SUPPORT. The model's own tests. Expected results are those of 95_test_vectors.md (its vector is named) and of the worked
examples of the rules. Then one witness for every obligation that has hypotheses.
-/

namespace Sys2Proof.Tests

open Sys2Proof.Machine

/-- The script of vector S1. -/
def scriptS1 : Vector Note 16 := #v[0x102, 0x201, 0, 0, 0, 0, 0, 0, 0, 0, 0, 0, 0, 0, 0, 0]

/-- The start state of the vectors: reset with no key pressed. -/
def base : State := State.resetWith (referenceCfg scriptS1) 0b1111#4

/-- The state after the `SEQSTART` of vector S1, as the worked example of R167 has it. -/
def playing : State :=
  { base with toneCmp := 0x08E0#16, toneCom := true, toneCs := true, spkAct := true, ledport := 0x01#8, keyIe := false,
              playing := true, seqRem := 2#8, notes := scriptS1, beatRun := true }

/-- The same playback on the last tick of note 1, with the tick requested (vector S1 before its third tick). -/
def lastTick : State :=
  { playing with toneCmp := 0x0860#16, ledport := 0x02#8, seqIdx := 1#4, seqRem := 1#8, beatPend := true }

/-- The state that an outcome answers, if it does. -/
def nextOf (o : Host.Outcome State Fault Refusal) : Option State :=
  match o with
  | .next t => some t
  | .fault _ => none
  | .refused _ => none

/-- The read views 0 to 7, as the vectors list them. -/
def views (s : State) : List Word :=
  [regView s 0#4, regView s 1#4, regView s 2#4, regView s 3#4, regView s 4#4, regView s 5#4, regView s 6#4,
   regView s 7#4]

/-- The views after an operation. -/
def viewsAfter (i : Instr) (s : State) : Option (List Word) := (nextOf (exec i s)).map views

/-- What an operation drives on `RDATA`. -/
def readAfter (i : Instr) (s : State) : Option (Option Word) := (nextOf (exec i s)).map State.rdata

/-- The views after the step of an agent. -/
def viewsAfterStep (a : AgentStep) (s : State) : Option (List Word) := (nextOf (takeAgentStep a [] s)).map views

/-! Well-formedness: the one check there is (R95). -/

theorem test_reserved_row_refuses_a_defined_opcode :
    (Instr.reservedOp8F 7#4 0#4).wellFormed = false ∧ (Instr.reservedOp8F 0#4 0#4).wellFormed = false := by decide

theorem test_reserved_row_admits_its_first_and_last_opcode :
    (Instr.reservedOp8F 8#4 0#4).wellFormed = true ∧ (Instr.reservedOp8F 15#4 15#4).wellFormed = true := by decide

/-! Decoding: words written out bit by bit, `OP` in bits 7:4 and `ARG` in bits 3:0 (R91, R93). -/

theorem test_decode_setTone : decodeCommand 0b00011101#8 = .setTone 13#4 := by decide
theorem test_decode_setLeds : decodeCommand 0b00101010#8 = .setLeds 10#4 := by decide
theorem test_decode_scanKeys : decodeCommand 0b00110000#8 = .scanKeys 0#4 := by decide
theorem test_decode_seqStart : decodeCommand 0b01000000#8 = .seqStart 0#4 := by decide
theorem test_decode_rdReg : decodeCommand 0b01010101#8 = .rdReg 5#4 := by decide
theorem test_decode_rdNote : decodeCommand 0b01100001#8 = .rdNote 1#4 := by decide
theorem test_decode_rdFreq : decodeCommand 0b01111101#8 = .rdFreq 13#4 := by decide
theorem test_decode_reservedOp0 : decodeCommand 0b00001111#8 = .reservedOp0 15#4 := by decide
theorem test_decode_reservedOp8F :
    decodeCommand 0b10000000#8 = .reservedOp8F 8#4 0#4 ∧ decodeCommand 0b11111111#8 = .reservedOp8F 15#4 15#4 := by
  decide
theorem test_decode_events :
    decodeEvent 0b00#2 = .keyChg0 ∧ decodeEvent 0b01#2 = .keyChg1 ∧ decodeEvent 0b10#2 = .keyChg2 ∧
      decodeEvent 0b11#2 = .tick := by decide

/-- The first two bytes of the stream of program P4; and the end of a stream. -/
theorem test_decode_stream :
    (decodeBytes [0x11#8, 0x21#8]).toOption = some (.setTone 1#4, [0x21#8]) ∧ (decodeBytes []).toOption = none := by
  decide

theorem test_decode_rejects_by_name :
    codeOfBits 16 0 = .error (.badLength 16) ∧ codeOfBits 8 256 = .error (.valueTooWide 8 256) ∧
      codeOfBits 2 4 = .error (.valueTooWide 2 4) := ⟨rfl, rfl, rfl⟩

theorem test_table_words :
    decodeTableWord 8 0x10 = some (.setTone 0#4) ∧ decodeTableWord 8 0x80 = some (.reservedOp8F 8#4 0#4) ∧
      decodeTableWord 2 3 = some .tick ∧ decodeTableWord 2 0 = some .keyChg0 := by decide

/-- Each command word is selected by exactly one of the table's rows. -/
theorem test_opcode_rows_are_disjoint_and_complete :
    ∀ w : CommandWord, (opcodeRows.filter fun r => r.selects w).length = 1 := by decide

/-! The text forms (R99, R100). -/

theorem test_parse_commands :
    parseCommand "SETTONE 5".toList = .ok (.setTone 5#4) ∧ parseCommand "SETLEDS 0xA".toList = .ok (.setLeds 10#4) ∧
      parseCommand "RDNOTE 16".toList = .error .operandOutOfRange := ⟨rfl, rfl, rfl⟩

theorem test_parse_trace_lines :
    parseTraceLine "HOST  SETTONE 5".toList = .ok [.host 0x15#8] ∧
      parseTraceLine "KEYS  0b1110".toList = .ok [.keys 0b1110#4] ∧
      parseTraceLine "ARB   TICK".toList = .ok [.arb 3#2] ∧
      parseTraceLine "TCLK  x3".toList = .ok [.tclk, .tclk, .tclk] := ⟨rfl, rfl, rfl, rfl⟩

/-! The start state (95_test_vectors.md, R52). -/

theorem test_start_state : views base = [0, 0, 0, 0, 0x000F, 0x0001, 0, 0] := by decide

/-! Operations. -/

/-- T3, first row, and the worked example of R125. -/
theorem test_setTone_note : viewsAfter (.setTone 13#4) base = some [0x046F, 0x0007, 0, 0, 0x000F, 0x0001, 0, 0] := by
  decide

/-- T4: silence while the flip-flop is 1 keeps it and the compare count. -/
theorem test_setTone_silence_keeps_the_level :
    viewsAfter (.setTone 0#4)
        { base with toneCmp := 0x046F#16, toneCom := true, toneCs := true, spkAct := true, ocLvl := true } =
      some [0x046F, 0x0008, 0, 0, 0x000F, 0x0001, 0, 0] := by decide

/-- L1v: the display is overwritten, not accumulated. -/
theorem test_setLeds_overwrites :
    (nextOf (exec (.setLeds 5#4) { base with ledport := 0x0A#8 })).map State.ledport = some 0x05#8 := by decide

/-- L2v: the second router of that vector. -/
theorem test_setLeds_routes :
    (nextOf (exec (.setLeds 0b0110#4) { base with cfg := { base.cfg with ledMap := #v[7, 2, 0, 5] } })).map
      State.ledport = some 0x05#8 := by decide

/-- K1. -/
theorem test_scanKeys : readAfter (.scanKeys 0#4) { base with keyin := 0b1010#4 } = some (some 0x0005#16) := by decide

/-- K2, the reversed wiring. -/
theorem test_scanKeys_reversed :
    readAfter (.scanKeys 7#4) { base with keyin := 0b1110#4, cfg := { base.cfg with keyMap := keyMapReversed } } =
      some (some 0x0008#16) := by decide

/-- S1, its first command, and the worked example of R167. -/
theorem test_seqStart :
    nextOf (exec (.seqStart 11#4) base) = some { playing with rdata := some 0x0000#16 } := by decide

/-- Q3: the copy stops at the sentinel. -/
theorem test_seqStart_copies_up_to_the_sentinel :
    (nextOf (exec (.seqStart 0#4) { base with cfg := { base.cfg with script := scriptS1.set 3 0x305#12 } })).map
      State.notes = some scriptS1 := by decide

/-- K1. -/
theorem test_rdReg_keys : readAfter (.rdReg 4#4) { base with keyin := 0b1010#4 } = some (some 0x005A#16) := by decide

/-- R1v, `BEAT_PERIOD`. -/
theorem test_rdReg_beat_period : readAfter (.rdReg 8#4) base = some (some 0x00FF#16) := by decide

/-- Q3. -/
theorem test_rdNote : readAfter (.rdNote 1#4) playing = some (some 0x0201#16) := by decide

/-- R2v. -/
theorem test_rdFreq :
    readAfter (.rdFreq 13#4) base = some (some 0x046F#16) ∧ readAfter (.rdFreq 14#4) base = some (some 0#16) := by
  decide

/-- R3v. -/
theorem test_reserved_words :
    nextOf (exec (decodeCommand 0x0F#8) playing) = some { playing with rdata := some 0#16 } ∧
      nextOf (exec (decodeCommand 0x9A#8) playing) = some { playing with rdata := some 0#16 } := by decide

/-- P1: code 14 leaves the tone and lights three LEDs; the other bank stays pending. -/
theorem test_keyChg0 :
    viewsAfter .keyChg0
        { base with toneCmp := 0x0646#16, toneCom := true, toneCs := true, spkAct := true, ledport := 0x07#8,
                    keyin := 0b0001#4, keyPend := 0b101#3 } =
      some [0x0646, 0x0007, 0, 0x000E, 0x00E1, 0x0009, 0, 0] := by decide

/-- P1: code 7. -/
theorem test_keyChg1 :
    viewsAfter .keyChg1 { base with keyin := 0b1000#4, keyPend := 0b010#3 } =
      some [0x0646, 0x0007, 0, 0x0007, 0x0078, 0x0001, 0, 0] := by decide

/-- K3: code 9. -/
theorem test_keyChg2 :
    viewsAfter .keyChg2 { base with keyin := 0b0110#4, keyPend := 0b101#3 } =
      some [0x0597, 0x0007, 0, 0x0009, 0x0096, 0x0003, 0, 0] := by decide

/-- S1, its second tick. -/
theorem test_tick_advances :
    viewsAfter .tick { playing with seqRem := 1#8, beatPend := true } =
      some [0x0860, 0x0007, 0, 0x0002, 0x000F, 0x0000, 0x0113, 0] := by decide

/-- S1, its third tick. -/
theorem test_tick_stops :
    viewsAfter .tick lastTick = some [0x0860, 0x0000, 0, 0x0000, 0x000F, 0x0001, 0x0020, 0] := by decide

/-! The other agents. -/

/-- K3: lines of two banks. -/
theorem test_keys_sets_two_banks :
    viewsAfterStep (.keys 0b0110#4) base = some [0, 0, 0, 0, 0x0096, 0x000B, 0, 0] := by decide

/-- P3: a change made while masked is remembered. -/
theorem test_keys_latches_while_masked :
    viewsAfterStep (.keys 0b1111#4) { playing with keyin := 0b1101#4 } =
      some [0x08E0, 0x0007, 0, 0x0001, 0x000F, 0x0002, 0x0203, 0] := by decide

/-- T3: edge 1136. -/
theorem test_tclk_match :
    viewsAfterStep .tclk
        { base with toneCmp := 0x046F#16, toneCom := true, toneCs := true, spkAct := true, tcnt := 0x046F#16 } =
      some [0x046F, 0x001F, 0, 0, 0x000F, 0x0001, 0, 0] := by decide

/-- T3: the compare count lowered below the counter. -/
theorem test_tclk_counter_above_compare :
    viewsAfterStep .tclk
        { base with toneCmp := 0x046F#16, toneCom := true, toneCs := true, spkAct := true, ocLvl := true,
                    tcnt := 0x061C#16 } =
      some [0x046F, 0x0007, 0, 0, 0x000F, 0x0001, 0, 0] := by decide

/-- Q7: edge 256. -/
theorem test_bclk_requests :
    viewsAfterStep .bclk { playing with bcnt := 0x00FF#16 } =
      some [0x08E0, 0x0007, 0, 0x0001, 0x000F, 0x0010, 0x0203, 0] := by decide

/-- Z1. -/
theorem test_reset_ends_a_playback :
    nextOf (takeAgentStep .rst [] { lastTick with keyPend := 0b001#3 }) = some { base with freeCount := 1 } := by decide

/-- K6, Q7, Q8: steps that are not legal. -/
theorem test_steps_that_are_not_legal :
    nextOf (takeAgentStep (.arb 0#2) [] base) = none ∧
      nextOf (takeAgentStep (.arb 0#2) [] { playing with keyPend := 0b001#3 }) = none ∧
      nextOf (takeAgentStep (.arb 3#2) [] playing) = none ∧ nextOf (takeAgentStep .bclk [] lastTick) = none := by decide

/-! The block without clocks (R212). -/

/-- Dropped fields of any kind. -/
def someDropped : Dropped := ⟨0x1234#16, 0x0056#16, true, false⟩

/-- K1: `SCANKEYS` returns its code there too. -/
theorem test_clockFree_scanKeys :
    (nextOf (clockFreeStep someDropped (.host 0x30#8) { base with keyin := 0b1010#4 })).map State.rdata =
      some (some 0x0005#16) := by decide

/-- S1, its second tick at the source layer; Q8: no tick while the beat timer is stopped. -/
theorem test_clockFree_tick :
    (nextOf (clockFreeStep someDropped (.arb 3#2) { playing with seqRem := 1#8 })).map views =
        some [0x0860, 0x0007, 0, 0x0002, 0x000F, 0x0000, 0x0113, 0] ∧
      nextOf (clockFreeStep someDropped (.arb 3#2) base) = none := by decide

/-! Placing an operation after reset. -/

theorem test_withFetchWord_command :
    step (State.reset.withFetchWord 8 0x2A) = exec (.setLeds 10#4) { State.reset with freeCount := 1 } := rfl

theorem test_withFetchWord_event :
    step (State.reset.withFetchWord 2 1) =
      exec .keyChg1 { State.reset with keyPend := 0b010#3, freeCount := 1 } := rfl

theorem test_withFetchWord_tick :
    step (State.reset.withFetchWord 2 3) = exec .tick { State.reset with beatPend := true, freeCount := 1 } := rfl

/-! The configuration. -/

/-- R121 on the reference table of R123, and R243. -/
theorem test_reference_configuration : CfgOk (referenceCfg scriptS1) := by decide

/-- R124. -/
theorem test_reference_table_descends : FreqDescends (referenceCfg scriptS1) := by decide

/-- The premises FREQ of R121 and R243 alone do not make the table descend: thirteen notes of 440 Hz at 1 MHz. -/
theorem test_equal_notes_do_not_descend :
    let c := { referenceCfg scriptS1 with noteHz := Vector.replicate 13 ⟨440, 1⟩, freq := Vector.replicate 14 0x046F#16 }
    FreqOk c ∧ ¬ NotesAscend c ∧ ¬ FreqDescends c := by decide

/-- S1: three ticks; Q4: 269 ticks. -/
theorem test_playback_lengths :
    playbackTicks (referenceCfg scriptS1) = 3 ∧
      playbackTicks (referenceCfg #v[0x1FF, 0x201, 0x201, 0x201, 0x201, 0x201, 0x201, 0x201, 0x201, 0x201, 0x201,
        0x201, 0x201, 0x201, 0x201, 0]) = 269 := by decide

/-! Witnesses: states and operands that meet the hypotheses of the obligations. -/

/-- A run that answers a next state. -/
def answers (o : Host.Outcome State Fault Refusal) : Bool := (nextOf o).isSome

theorem answers_next {o : Host.Outcome State Fault Refusal} (h : answers o = true) : ∃ t, o = .next t := by
  cases o with
  | next t => exact ⟨t, rfl⟩
  | fault r => cases h
  | refused r => cases h

/-- A sounding note with the counter on its compare count. -/
def atMatch : State :=
  { base with toneCmp := 0x046F#16, toneCom := true, toneCs := true, spkAct := true, tcnt := 0x046F#16 }

/-- A script with no sentinel. -/
def endlessScript : Vector Note 16 := Vector.replicate 16 0x101#12

/-- Its playback on the last entry. -/
def endless : State :=
  { State.resetWith (referenceCfg endlessScript) 0b1111#4 with
    toneCmp := 0x08E0#16, toneCom := true, toneCs := true, spkAct := true, ledport := 0x01#8, keyIe := false,
    playing := true, seqIdx := 15#4, seqRem := 1#8, notes := endlessScript, beatRun := true }

theorem playing_invariant : Invariant playing :=
  ⟨by decide, by decide, by decide, by decide, by decide, by decide, by decide, by decide, by decide, by decide,
   by decide, by decide, by decide, by decide⟩

theorem lastTick_invariant : Invariant lastTick :=
  ⟨by decide, by decide, by decide, by decide, by decide, by decide, by decide, by decide, by decide, by decide,
   by decide, by decide, by decide, by decide⟩

theorem endless_invariant : Invariant endless :=
  ⟨by decide, by decide, by decide, by decide, by decide, by decide, by decide, by decide, by decide, by decide,
   by decide, by decide, by decide, by decide⟩

theorem witness_DecodeOfEncodeIsTheOperation :
    ∀ i ∈ [Instr.reservedOp8F 8#4 0#4, .reservedOp8F 15#4 15#4, .reservedOp0 15#4, .setTone 15#4, .tick],
      i.wellFormed = true := by decide

theorem witness_CommandTextReadsBack : (15 : Nat) < 16 ∧ OpcodeRow.rdNote ∈
    [OpcodeRow.setTone, .setLeds, .rdReg, .rdNote, .rdFreq] := by decide

theorem witness_StepRunsTheDecodedCommand :
    ({ base with inputs := [.host 0x15#8, .tclk] } : State).inputs = .host 0x15#8 :: [.tclk] := rfl

theorem witness_StepRunsTheDeliveredHandler :
    (∀ ev ∈ [0#2, 2#2], deliverable ev { base with keyPend := 0b101#3, inputs := [.arb ev] } = true) ∧
      deliverable 3#2 { lastTick with inputs := [.arb 3#2] } = true := by decide

theorem witness_StepRunsTheListedAgent :
    ({ base with inputs := [.bclk, .rst] } : State).inputs = .bclk :: [.rst] ∧
      stepEnabled .bclk { base with inputs := [.bclk, .rst] } = true := by decide

/-- A masked request, one that is not pending, and no tick, beside the event ids that are below 3. -/
theorem witness_DeliverableIsPendingAndNotMasked : (0#2).toNat < 3 ∧ (2#2).toNat < 3 ∧
    deliverable 0#2 { playing with keyPend := 0b001#3, inputs := [.arb 0#2] } = false ∧
      deliverable 2#2 { base with inputs := [.arb 2#2] } = false ∧
      deliverable 3#2 { playing with inputs := [.arb 3#2] } = false := by decide

/-- A step that is taken, and one refused for each of the three reasons. -/
theorem witness_ListedStepIsRefusedExactlyWhenDisabled :
    answers (step { base with inputs := [.tclk] }) = true ∧
      answers (step { base with inputs := [.arb 0#2] }) = false ∧
      answers (step { base with inputs := [.keys 0b1111#4] }) = false ∧
      answers (step { lastTick with inputs := [.bclk] }) = false := by decide

theorem witness_SetToneFollowsItsThreeBranches :
    (1 ≤ (1#4).toNat ∧ (1#4).toNat < 14) ∧ (1 ≤ (13#4).toNat ∧ (13#4).toNat < 14) ∧ 13 < (14#4).toNat := by decide

theorem witness_SpeakerIsEnabledByNotesAndDisabledBySilence :
    (1 ≤ (1#4).toNat ∧ (1#4).toNat < 14) ∧ (1 ≤ (13#4).toNat ∧ (13#4).toNat < 14) := by decide

theorem witness_SpeakerPadFollowsTheToggle : playing.toneCom = true ∧ base.toneCom = false := by decide

/-- The four clauses, the counter just below its compare count and on it. -/
theorem witness_ToneClockEdgeCountsOrMatches :
    base.toneCs = false ∧
      (({ atMatch with tcnt := 0x046E#16 } : State).toneCs = true ∧ (0x046E#16).toNat < atMatch.toneCmp.toNat) ∧
      (atMatch.toneCs = true ∧ atMatch.toneCmp.toNat ≤ atMatch.tcnt.toNat ∧ atMatch.toneCom = true) ∧
      ({ atMatch with toneCom := false } : State).toneCom = false := by decide

theorem witness_ToneTogglesAfterTheRestOfTheCount :
    playing.toneCs = true ∧ playing.toneCom = true ∧ playing.tcnt.toNat + 2272 ≤ playing.toneCmp.toNat := by decide

theorem witness_SetLedsRoutesTheKeyCode :
    LedMapOk base.cfg ∧ LedMapOk { base.cfg with ledMap := #v[7, 2, 0, 5] } := by decide

theorem witness_SetLedsUnderTheDefaultMap : base.cfg.ledMap = #v[0, 1, 2, 3] := by decide

theorem witness_ScanIsZeroExactlyWhenNoKeyIsPressed :
    KeyMapOk base.cfg ∧ KeyMapOk { base.cfg with keyMap := keyMapReversed } := by decide

theorem witness_KeyLineMoveSetsTheBankFlags : 0b0110#4 ≠ playing.keyin ∧ 0b0111#4 ≠ base.keyin := by decide

/-- A press on two banks and the two deliveries: nothing is left pending. -/
theorem witness_OutputsSettleToTheFinalCode :
    (nextOf (runTrace [.keys 0b0110#4, .arb 2#2, .arb 0#2] base)).map State.keyPend = some 0b000#3 := by decide

theorem witness_KeyDeliveriesCommute :
    deliverable 0#2 { base with keyPend := 0b101#3 } = true ∧ deliverable 2#2 { base with keyPend := 0b101#3 } = true := by
  decide

theorem witness_SeqStartIsIgnoredOrBeginsPlayback :
    playing.playing = true ∧ ((referenceCfg (scriptS1.set 0 0x500#12)).script[0]).extractLsb' 0 8 = 0#8 ∧
      base.playing = false ∧ (base.cfg.script[0]).extractLsb' 0 8 ≠ 0#8 := by decide

/-- Idle; a count of 2; a note's last tick, with the count at 1 and at the unreachable 0; the last tick of all. -/
theorem witness_TickCountsDownOrAdvances :
    (base.playing = false ∧ playing.playing = true ∧ 2 ≤ playing.seqRem.toNat) ∧
      (∀ r ∈ [0#8, 1#8], ({ playing with seqRem := r } : State).seqRem.toNat < 2 ∧
        (memReadNotes { playing with seqRem := r } (playing.seqIdx + 1#4)).extractLsb' 0 8 ≠ 0#8) ∧
      (lastTick.playing = true ∧ lastTick.seqRem.toNat < 2 ∧
        (memReadNotes lastTick (lastTick.seqIdx + 1#4)).extractLsb' 0 8 = 0#8) := by decide

theorem witness_TickStopsAtTheSentinel :
    lastTick.playing = true ∧ lastTick.seqRem.toNat < 2 ∧
      (memReadNotes lastTick (lastTick.seqIdx + 1#4)).extractLsb' 0 8 = 0#8 := by decide

/-- The first and the last tick of each note of S1. -/
theorem witness_PlaybackLastsTheSumOfTheDurations :
    ScriptWf base.cfg ∧ base.playing = false ∧
      ∀ p ∈ [((0 : Fin 16), 0), (0, 1), (1, 2)], p.1.val < scriptLength base.cfg ∧
        ticksBefore base.cfg p.1.val ≤ p.2 ∧ p.2 < ticksBefore base.cfg (p.1.val + 1) := by decide

theorem witness_UnterminatedScriptNeverStops :
    Invariant endless ∧ scriptLength endless.cfg = 16 ∧ endless.playing = true := ⟨endless_invariant, by decide, rfl⟩

theorem witness_EntriesAfterTheSentinelDoNotMatter :
    scriptLength base.cfg < 16 ∧
      scriptLength { base.cfg with script := (scriptS1.set 2 0xF00#12).set 3 0x305#12 } = scriptLength base.cfg ∧
      ∀ i : Fin 16, i.val < scriptLength base.cfg →
        ((scriptS1.set 2 0xF00#12).set 3 0x305#12)[i] = base.cfg.script[i] := by decide

/-- The three clauses, the counter just below the period and on it. -/
theorem witness_BeatClockEdgeCountsOrRequests :
    base.beatRun = false ∧ (playing.beatRun = true ∧ (0x00FE#16).toNat < playing.cfg.beatPeriod.toNat) ∧
      playing.cfg.beatPeriod.toNat ≤ (0x00FF#16).toNat := by decide

theorem witness_BeatRequestComesAfterThePeriod :
    playing.beatRun = true ∧ playing.beatPend = false ∧ playing.bcnt = 0#16 ∧ 255 ≤ playing.cfg.beatPeriod.toNat := by
  decide

theorem witness_ReservedRegistersReadZero : 9 ≤ (9#4).toNat ∧ 9 ≤ (15#4).toNat := by decide

theorem witness_RdFreqReturnsTheEntryOrZero : (0#4).toNat < 14 ∧ (13#4).toNat < 14 ∧ 13 < (14#4).toNat := by decide

theorem witness_ReservedCommandWordsDoNothing :
    (0x0F#8).extractLsb' 4 4 = 0x0#4 ∧ 8 ≤ ((0x80#8).extractLsb' 4 4).toNat ∧ 8 ≤ ((0xFF#8).extractLsb' 4 4).toNat := by
  decide

theorem witness_ArgIsIgnoredWhereTheRuleSaysSo : 14 ≤ (14#4).toNat ∧ 9 ≤ (9#4).toNat := by decide

theorem witness_OnlyCommandsDriveReadData :
    (∃ t, takeAgentStep (.host 0x15#8) [] base = .next t) ∧ ∃ t, takeAgentStep .tclk [] base = .next t :=
  ⟨answers_next (by decide), answers_next (by decide)⟩

theorem witness_ResetPutsEveryFieldButTheKeyLines :
    ({ lastTick with inputs := [.rst] } : State).inputs = .rst :: [] := rfl

/-- A playback that ends, and one that takes a command. -/
theorem witness_EveryStepKeepsTheInvariant :
    (Invariant { lastTick with inputs := [.arb 3#2] } ∧ ∃ t, step { lastTick with inputs := [.arb 3#2] } = .next t) ∧
      Invariant { playing with inputs := [.host 0x10#8] } ∧
      ∃ t, step { playing with inputs := [.host 0x10#8] } = .next t :=
  ⟨⟨⟨by decide, by decide, by decide, by decide, by decide, by decide, by decide, by decide, by decide, by decide,
     by decide, by decide, by decide, by decide⟩, answers_next (by decide)⟩,
   ⟨by decide, by decide, by decide, by decide, by decide, by decide, by decide, by decide, by decide, by decide,
    by decide, by decide, by decide, by decide⟩, answers_next (by decide)⟩

theorem witness_EveryReachableStateMeetsTheInvariant :
    ∃ t, runTrace [.keys 0b1101#4, .arb 0#2, .host 0x40#8, .tclk, .bclk]
      (State.resetWith (referenceCfg scriptS1) 0b1111#4) = .next t := answers_next (by decide)

/-- A playback whose first note has code 14 and leaves the tone of a key that was down. -/
def silentStart : State :=
  { playing with cfg := { playing.cfg with script := scriptS1.set 0 0xE02#12 }, notes := scriptS1.set 0 0xE02#12,
                 toneCmp := 0x0860#16, ledport := 0x0E#8 }

/-- The script of program P3. -/
def scriptP3 : Vector Note 16 := #v[0x501, 0x003, 0xE02, 0, 0, 0, 0, 0, 0, 0, 0, 0, 0, 0, 0, 0]

/-- P3 after its tick (1): a rest. -/
def restP3 : State :=
  { playing with cfg := referenceCfg scriptP3, notes := scriptP3, toneCmp := 0x070B#16, toneCom := false, toneCs := false,
                 spkAct := false, ledport := 0x00#8, keyPend := 0b001#3, seqIdx := 1#4, seqRem := 3#8 }

/-- P3, ticks (1) and (4): the rest, and then the code 14, keep the compare count 070B of the note before. -/
theorem test_rest_keeps_the_compare_count :
    toneLeftBy restP3 ⟨0x0860#16, true, true, true⟩ 1 = ⟨0x070B#16, false, false, false⟩ ∧
      toneLeftBy restP3 ⟨0x0860#16, true, true, true⟩ 2 = ⟨0x070B#16, false, false, false⟩ := by decide

/-- Clause (g) refuses another compare count after that rest. -/
theorem test_rest_with_another_compare_count (start : ToneFields) :
    ¬ SequencerOwnsOutputs start { restP3 with toneCmp := 0x0000#16 } :=
  fun h =>
    absurd (congrArg ToneFields.toneCmp (h.tone_is_left rfl (by decide)))
      (show (0x0000#16 : Word) ≠ 0x070B#16 by decide)

/-- A note whose code sets the tone, one that leaves the tone that `SEQSTART` found, and a rest. -/
theorem witness_PlaybackOwnsTheOutputs :
    (Invariant lastTick ∧ SequencerOwnsOutputs (toneFields base) lastTick ∧
      keepsHandsOff (.keys 0b0111#4) lastTick = true ∧ ∃ t, takeAgentStep (.keys 0b0111#4) [] lastTick = .next t) ∧
    (Invariant silentStart ∧ SequencerOwnsOutputs ⟨0x0860#16, true, true, true⟩ silentStart ∧
      latestToneCode silentStart 0 = none ∧ ∃ t, takeAgentStep .tclk [] silentStart = .next t) ∧
    (Invariant restP3 ∧ SequencerOwnsOutputs ⟨0x0860#16, true, true, true⟩ restP3 ∧ ScriptWf restP3.cfg ∧
      ∃ t, takeAgentStep .bclk [] restP3 = .next t) :=
  ⟨⟨lastTick_invariant, ⟨by decide, by decide, by decide, by decide⟩, by decide, answers_next (by decide)⟩,
   ⟨⟨by decide, by decide, by decide, by decide, by decide, by decide, by decide, by decide, by decide, by decide,
     by decide, by decide, by decide, by decide⟩, ⟨by decide, by decide, by decide, by decide⟩, by decide,
    answers_next (by decide)⟩,
   ⟨⟨by decide, by decide, by decide, by decide, by decide, by decide, by decide, by decide, by decide, by decide,
     by decide, by decide, by decide, by decide⟩, ⟨by decide, by decide, by decide, by decide⟩, by decide,
    answers_next (by decide)⟩⟩

/-- The past after the `SEQSTART` of vector S1. -/
def pastS1 : Past := (Past.start base).after (.host 0x40#8) base playing

/-- After an accepted `SEQSTART`, and before any. -/
theorem witness_EveryStepKeepsThePastInvariant :
    (Invariant playing ∧ PastInvariant pastS1 playing ∧ pastS1.copied = true ∧
      ∃ t, takeAgentStep .tclk [] playing = .next t) ∧
    (PastInvariant (Past.start base) base ∧ (Past.start base).copied = false) :=
  ⟨⟨playing_invariant, ⟨by decide, by decide, by decide, by decide⟩, by decide, answers_next (by decide)⟩,
   ⟨by decide, by decide, by decide, by decide⟩, by decide⟩

/-- A playback with a key line moved in it, that keeps the proviso. -/
theorem witness_EveryRunFromResetMeetsThePastInvariant :
    (∃ t, runTrace [.host 0x40#8, .tclk, .keys 0b1110#4] (State.resetWith (referenceCfg scriptS1) 0b1111#4) = .next t) ∧
      runKeepsHandsOff [.host 0x40#8, .tclk, .keys 0b1110#4] (State.resetWith (referenceCfg scriptS1) 0b1111#4) = true :=
  ⟨answers_next (by decide), by decide⟩

/-- Both ways a playback ends, and the one way it begins. -/
theorem witness_PlaybackEndsOnlyAtItsSentinelOrByReset :
    lastTick.playing = true ∧ (nextOf (takeAgentStep (.arb 3#2) [] lastTick)).map State.playing = some false ∧
      (nextOf (takeAgentStep .rst [] playing)).map State.playing = some false ∧ base.playing = false ∧
      (nextOf (takeAgentStep (.host 0x4B#8) [] base)).map State.playing = some true := by decide

theorem witness_PlaybackMasksTheKeyPath : Invariant playing ∧ owner playing = .sequencer ∧ (2#2 : EventId) ≠ 0b11#2 :=
  ⟨playing_invariant, by decide, by decide⟩

/-- Each group of fields is written by some step. -/
theorem witness_OnlyTheNamedStepsWriteEachField :
    (nextOf (takeAgentStep .tclk [] atMatch)).map State.ocLvl = some true ∧
      (nextOf (takeAgentStep (.keys 0b0111#4) [] base)).map State.keyPend = some 0b100#3 ∧
      (nextOf (takeAgentStep (.host 0x40#8) [] base)).map State.playing = some true ∧
      (nextOf (takeAgentStep (.arb 3#2) [] lastTick)).map State.keyIe = some true ∧
      (nextOf (takeAgentStep (.host 0x2F#8) [] base)).map State.ledport = some 0x0F#8 := by decide

theorem witness_ToneCounterStaysBounded :
    (∃ t, takeAgentStep .tclk [] atMatch = .next t) ∧ atMatch.tcnt.toNat ≤ 2272 ∧ atMatch.toneCmp.toNat ≤ 2272 ∧
      ∀ k : Fin 14, 1 ≤ k.val → (atMatch.cfg.freq[k]).toNat ≤ 2272 :=
  ⟨answers_next (by decide), by decide⟩

theorem witness_FrequencyEntryZeroIsReadOnlyByRdFreq :
    Instr.rdFreq 1#4 ≠ .rdFreq 0#4 ∧ Instr.setTone 0#4 ≠ .rdFreq 0#4 := by decide

theorem witness_ConstructionParametersEnterNoRule : ∃ t, takeAgentStep (.host 0x40#8) [] base = .next t :=
  answers_next (by decide)

theorem witness_ClockedStepsMapToTheClockFreeBlock :
    Invariant lastTick ∧ (isClockEdge (.arb 3#2) = false ∧ ∃ t, takeAgentStep (.arb 3#2) [] lastTick = .next t) ∧
      isClockEdge .tclk = true ∧ ∃ t, takeAgentStep .tclk [] lastTick = .next t :=
  ⟨lastTick_invariant, ⟨by decide, answers_next (by decide)⟩, by decide, answers_next (by decide)⟩

theorem witness_ClockedRunsMapToClockFreeRuns :
    Invariant lastTick ∧ ∃ t, runTrace [.tclk, .host 0x30#8, .arb 3#2, .bclk] lastTick = .next t :=
  ⟨lastTick_invariant, answers_next (by decide)⟩

theorem witness_ClockFreeStepsReadNoDroppedField :
    clockFreeEnabled (.host 0x30#8) playing = true ∧ (∀ r ∈ [1#4, 2#4, 5#4, 7#4], AgentStep.host 0x30#8 ≠ .host (0x5#4 ++ r)) ∧
      ∃ t, performAgent (.host 0x30#8) { playing with rdata := none } = .next t :=
  ⟨by decide, by decide, answers_next (by decide)⟩

/-- The reference notes at 200 kHz, the table computed by hand from R121. -/
def slowCfg : Cfg :=
  { referenceCfg scriptS1 with fClk := 200000, freq := #v[0, 454, 428, 404, 381, 360, 340, 320, 302, 285, 269, 254, 240, 226] }

/-- The same at 14 960 Hz = 34 * 440 Hz. -/
def slowestCfg : Cfg :=
  { referenceCfg scriptS1 with fClk := 14960, freq := #v[0, 33, 31, 29, 28, 26, 24, 23, 22, 20, 19, 18, 17, 16] }

theorem witness_FrequencyTableDescendsAndIsReadOnly :
    (FreqOk slowestCfg ∧ NotesAscend slowestCfg ∧ 34 * (a4 slowestCfg).num ≤ slowestCfg.fClk * (a4 slowestCfg).den) ∧
      (FreqOk slowCfg ∧ NotesAscend slowCfg ∧ (a4 slowCfg).num ≤ 440 * (a4 slowCfg).den ∧ 200000 ≤ slowCfg.fClk) ∧
      ∃ t, takeAgentStep (.host 0x1D#8) [] base = .next t :=
  ⟨by decide, by decide, answers_next (by decide)⟩

theorem witness_UnlistedStepIsSomeAgentsStep : State.reset.inputs = [] := rfl

end Sys2Proof.Tests
end

/-!
The observation command `RDREG` (44_readback.md R190): its effect as one equation, and the read view of the reserved
register numbers.
-/

namespace Sys2Proof.Machine

/-- `RDREG r` drives `x[r]` on `RDATA` and changes nothing else (44_readback.md R190). -/
theorem exec_rdReg (r : Arg) (s : State) : exec (.rdReg r) s = .next (driveRdata (regView s r) s) := rfl

/-- The read views end at register number 8 (10_state.md R49). -/
theorem regView_eq_zero_of_reserved {r : Arg} (h : 9 ≤ r.toNat) (s : State) : regView s r = 0x0000#16 := by
  unfold regView
  split
  case h_10 => rfl
  all_goals omega

/-- Settles O36: the read view of a reserved register number is 0, and `RDREG` writes `RDATA` alone. -/
theorem reservedRegistersReadZero : Obligations.ReservedRegistersReadZero := by
  intro r s hr
  rw [exec_rdReg, regView_eq_zero_of_reserved hr, driveRdata]

end Sys2Proof.Machine

/-!
The reserved command words (30_encoding.md R95): which words decode to them, and their meaning as one equation each.
-/

namespace Sys2Proof.Machine

/-- The words with `OP` = 0x0 are the row `RESERVED_OP0` (R95). -/
theorem decodeCommand_of_opField_eq_zero {cw : CommandWord} (h : opField cw = 0x0#4) :
    decodeCommand cw = .reservedOp0 (argField cw) := by
  simp [decodeCommand, h]

/-- The words with `OP` in 0x8..0xF are the row `RESERVED_OP8_F` (R95). -/
theorem decodeCommand_of_eight_le_opField {cw : CommandWord} (h : 8 ≤ (opField cw).toNat) :
    decodeCommand cw = .reservedOp8F (opField cw) (argField cw) := by
  unfold decodeCommand
  split
  case h_9 => rfl
  all_goals omega

/-- A reserved word with `OP` = 0x0 drives 0x0000 on `RDATA` and changes nothing else (R95). -/
theorem exec_reservedOp0 (arg : Arg) (s : State) : exec (.reservedOp0 arg) s = .next (driveRdata 0x0000#16 s) := rfl

/-- A reserved word with `OP` in 0x8..0xF drives 0x0000 on `RDATA` and changes nothing else (R95). -/
theorem exec_reservedOp8F (op : BitVec 4) (arg : Arg) (s : State) :
    exec (.reservedOp8F op arg) s = .next (driveRdata 0x0000#16 s) := rfl

/-- Settles O39: both ranges of `OP` decode to a reserved row, whose meaning writes `RDATA` alone. -/
theorem reservedCommandWordsDoNothing : Obligations.ReservedCommandWordsDoNothing := by
  refine ⟨?_, exec_reservedOp0, exec_reservedOp8F⟩
  rintro cw s (hzero | hhigh)
  · rw [decodeCommand_of_opField_eq_zero hzero, exec_reservedOp0, driveRdata]
  · rw [decodeCommand_of_eight_le_opField hhigh, exec_reservedOp8F, driveRdata]

end Sys2Proof.Machine

/-!
Where `ARG` is ignored (30_encoding.md R96): the fields of a word {`OP`, `ARG`}, the commands that the rule names, and their
meaning as one equation each.
-/

namespace Sys2Proof.Machine

/-- `OP` of a word put together from its fields (R91). -/
@[simp] theorem opField_append (op : BitVec 4) (arg : Arg) : opField (op ++ arg) = op :=
  BitVec.extractLsb'_append_eq_left

/-- `ARG` of a word put together from its fields (R91). -/
@[simp] theorem argField_append (op : BitVec 4) (arg : Arg) : argField (op ++ arg) = arg :=
  BitVec.extractLsb'_append_eq_right

/-! The opcodes of R93 that R96 speaks of. -/

theorem decodeCommand_setTone (k : KeyCode) : decodeCommand (0x1#4 ++ k) = .setTone k := by simp [decodeCommand]
theorem decodeCommand_scanKeys (arg : Arg) : decodeCommand (0x3#4 ++ arg) = .scanKeys arg := by simp [decodeCommand]
theorem decodeCommand_seqStart (arg : Arg) : decodeCommand (0x4#4 ++ arg) = .seqStart arg := by simp [decodeCommand]
theorem decodeCommand_rdReg (r : Arg) : decodeCommand (0x5#4 ++ r) = .rdReg r := by simp [decodeCommand]
theorem decodeCommand_rdFreq (k : KeyCode) : decodeCommand (0x7#4 ++ k) = .rdFreq k := by simp [decodeCommand]

/-- `SETTONE k` is its effect on the tone fields, with 0x0000 on `RDATA` (40_tone.md R125). -/
theorem exec_setTone (k : KeyCode) (s : State) :
    exec (.setTone k) s = .next (driveRdata 0x0000#16 (setTone k s)) := rfl

/-- `SCANKEYS` drives the code of the key lines, whatever `ARG` is (42_keys.md R151). -/
theorem exec_scanKeys (arg : Arg) (s : State) :
    exec (.scanKeys arg) s = .next (driveRdata (zext16 (scan s.cfg s.keyin)) s) := rfl

/-- `SEQSTART` is its effect on the sequencer, whatever `ARG` is, with 0x0000 on `RDATA` (43_sequencer.md R167). -/
theorem exec_seqStart (arg : Arg) (s : State) :
    exec (.seqStart arg) s = .next (driveRdata 0x0000#16 (seqStart s)) := rfl

/-- `RDFREQ k` drives the Frequency Table's entry `k` and changes nothing else (44_readback.md R192). -/
theorem exec_rdFreq (k : KeyCode) (s : State) : exec (.rdFreq k) s = .next (driveRdata (freqView s.cfg k) s) := rfl

/-- The Frequency Table ends at entry 13 (44_readback.md R192). -/
theorem freqView_eq_zero_of_gt {k : KeyCode} (h : 13 < k.toNat) (c : Cfg) : freqView c k = 0x0000#16 :=
  dif_neg (Nat.not_le.mpr h)

/-- The assembler emits `ARG` = 0 for `SCANKEYS` and `SEQSTART` (R96). -/
theorem buildCommand_without_operand_emits_arg_zero :
    ∃ i j, buildCommand .scanKeys none = .ok i ∧ commandWordOf i = some 0x30#8 ∧
      buildCommand .seqStart none = .ok j ∧ commandWordOf j = some 0x40#8 :=
  ⟨.scanKeys 0#4, .seqStart 0#4, rfl, by decide, rfl, by decide⟩

/-- Settles O40: the words of the two rows without an operand differ in `ARG` alone, which their meaning does not use, and
the high arguments fall in the branch of `SETTONE`, `RDREG` and `RDFREQ` that does nothing. -/
theorem argIsIgnoredWhereTheRuleSaysSo : Obligations.ArgIsIgnoredWhereTheRuleSaysSo := by
  intro a b s
  simp only [decodeCommand_scanKeys, decodeCommand_seqStart, decodeCommand_rdReg, decodeCommand_rdFreq]
  refine ⟨rfl, rfl, ?scanKeys, ?seqStart, buildCommand_without_operand_emits_arg_zero, ?setTone, ?rdReg, ?rdFreq⟩
  case scanKeys => rw [exec_scanKeys, exec_scanKeys]
  case seqStart => rw [exec_seqStart, exec_seqStart]
  case setTone =>
    intro ha
    refine ⟨decodeCommand_setTone a, ?_⟩
    rw [exec_setTone, setTone_invalid a s ha, driveRdata]
  case rdReg =>
    intro ha
    rw [exec_rdReg, regView_eq_zero_of_reserved ha, driveRdata]
  case rdFreq =>
    intro ha
    rw [exec_rdFreq, freqView_eq_zero_of_gt ha, driveRdata]

end Sys2Proof.Machine

/-!
The Tone Synthesizer (40_tone.md): the three branches of `SETTONE` (R125), and the tone timer's clock edge as one equation
for each of its cases (R128).
-/

namespace Sys2Proof.Machine

/-- Settles O12: the word decodes to `SETTONE k`, whose effect is that of the branch of R125 that the code selects, with
0x0000 on `RDATA`. -/
theorem setToneFollowsItsThreeBranches : Obligations.SetToneFollowsItsThreeBranches := by
  refine ⟨decodeCommand_setTone, ?silence, ?note, ?invalid⟩
  case silence =>
    intro s
    rw [exec_setTone, setTone_silence, driveRdata]
  case note =>
    intro k s h h1
    rw [exec_setTone, setTone_note k s h1 h, driveRdata]
  case invalid =>
    intro k s h
    rw [exec_setTone, setTone_invalid k s h, driveRdata]

/-! `TCLK` (R128), one lemma for each of stopped, counting and match. -/

theorem tclk_of_stopped {s : State} (hcs : s.toneCs = false) : tclk s = s := by
  simp [tclk, hcs]

theorem tclk_of_lt_toneCmp {s : State} (hcs : s.toneCs = true) (hlt : s.tcnt.toNat < s.toneCmp.toNat) :
    tclk s = { s with tcnt := s.tcnt + 1#16 } := by
  have hcmp : ¬ s.toneCmp ≤ s.tcnt := Nat.not_le.mpr hlt
  simp [tclk, hcs, hcmp]

theorem tclk_of_toneCmp_le {s : State} (hcs : s.toneCs = true) (hle : s.toneCmp.toNat ≤ s.tcnt.toNat) :
    tclk s = { s with tcnt := 0x0000#16, ocLvl := if s.toneCom then !s.ocLvl else s.ocLvl } := by
  have hcmp : s.toneCmp ≤ s.tcnt := hle
  simp [tclk, hcs, hcmp]

/-- A `TCLK` step is the effect of one clock edge on the tone timer (R128). -/
theorem performAgent_tclk (s : State) : performAgent .tclk s = .next (tclk s) := rfl

/-- Settles O15: the edge is always enabled, and its effect is that of the case of R128 that holds; at a match the level
is inverted or kept as `TONE_COM` says. -/
theorem toneClockEdgeCountsOrMatches : Obligations.ToneClockEdgeCountsOrMatches := by
  intro s
  rw [performAgent_tclk]
  refine ⟨rfl, ?stopped, ?counting, ?toggling, ?disconnected⟩
  case stopped =>
    intro hcs
    rw [tclk_of_stopped hcs]
  case counting =>
    intro hcs hlt
    rw [tclk_of_lt_toneCmp hcs hlt]
  case toggling =>
    intro hcs hle hcom
    rw [tclk_of_toneCmp_le hcs hle, if_pos hcom]
  case disconnected =>
    intro hcs hle hcom
    rw [tclk_of_toneCmp_le hcs hle, if_neg (Bool.eq_false_iff.mp hcom)]

end Sys2Proof.Machine

/-!
The LED Display (41_led.md): `SETLEDS` as one equation, and the level of each LED position under an injective `LED_MAP`
(R140, R141).
-/

namespace Sys2Proof.Machine

theorem decodeCommand_setLeds (k : KeyCode) : decodeCommand (0x2#4 ++ k) = .setLeds k := by simp [decodeCommand]

/-- `SETLEDS k` is its effect on the port, with 0x0000 on `RDATA` (R140). -/
theorem exec_setLeds (k : KeyCode) (s : State) :
    exec (.setLeds k) s = .next (driveRdata 0x0000#16 (setLeds k s)) := rfl

/-- LED position `i` shows bit `i` of the code (R140): no later pin write hits its bit, since no two positions share one
(R141). -/
theorem setLeds_routed (k : KeyCode) (s : State) (hmap : LedMapOk s.cfg) (i : Fin 4) :
    (setLeds k s).ledport.getLsbD (s.cfg.ledMap[i]).val = k.getLsbD i.val := by
  have ne : ∀ l : Fin 4, l ≠ i → (s.cfg.ledMap[l]).val ≠ (s.cfg.ledMap[i]).val :=
    fun l hl e => hl (hmap l i (Fin.ext e))
  rw [getLsbD_setLeds]
  match i, ne with
  | 3, _ => exact if_pos rfl
  | 2, ne => rw [if_neg (ne 3 (by decide)), if_pos rfl]; rfl
  | 1, ne => rw [if_neg (ne 3 (by decide)), if_neg (ne 2 (by decide)), if_pos rfl]; rfl
  | 0, ne => rw [if_neg (ne 3 (by decide)), if_neg (ne 2 (by decide)), if_neg (ne 1 (by decide)), if_pos rfl]; rfl

/-- Settles O17: the word decodes to `SETLEDS k`, which writes the port and `RDATA` alone; the routed bits of the port are
the code's and the others are kept. -/
theorem setLedsRoutesTheKeyCode : Obligations.SetLedsRoutesTheKeyCode := by
  intro k s hmap
  refine ⟨decodeCommand_setLeds k, (setLeds k s).ledport, ?effect, setLeds_routed k s hmap, setLeds_unrouted k s⟩
  case effect => rw [exec_setLeds, setLeds_eq, driveRdata]

end Sys2Proof.Machine

/-!
The Key Scanner (42_keys.md): the scan function (R150), `SCANKEYS` (R151), the environment's step
`KEYS` (R153) and the handlers `KEYCHG b` (R154).
-/

namespace Sys2Proof.Machine

/-- Bits 7:4 of the read view of the keys hold the code of the lines (10_state.md R44). -/
theorem keysView_code (s : State) : (keysView s).extractLsb' 4 4 = scan s.cfg s.keyin := by
  apply BitVec.eq_of_getLsbD_eq
  intro i hi
  simp [keysView, viewField, zext16, hi, show 4 + i < 16 by omega]

/-- Settles O20: the code is `scan(KEYIN)`, which `SCANKEYS` drives on `RDATA` and `RDREG 4` shows in bits 7:4. -/
theorem scanKeysReturnsThePressedKeys : Obligations.ScanKeysReturnsThePressedKeys := by
  intro arg s
  refine ⟨scan s.cfg s.keyin, keysView s, decodeCommand_scanKeys arg, ?scanKeys, getLsbD_scan s.cfg s.keyin, ?rdReg,
    keysView_code s⟩
  case scanKeys => rw [exec_scanKeys, driveRdata, zext16]
  case rdReg => rw [exec_rdReg]; rfl

/-- With all lines at one level every code bit is its complement, whichever line it reads (R150). -/
theorem scan_fill (c : Cfg) (b : Bool) : scan c (BitVec.fill 4 b) = BitVec.fill 4 !b := by
  apply BitVec.eq_of_getLsbD_eq
  intro i hi
  have hline : (BitVec.fill 4 b).getLsbD (c.keyMap[(⟨i, hi⟩ : Fin 4)]).val = b := by
    rw [BitVec.getLsbD_fill, decide_eq_true (Fin.is_lt _), Bool.and_true]
  rw [getLsbD_scan c _ ⟨i, hi⟩, scanBit, hline, BitVec.getLsbD_fill, decide_eq_true hi, Bool.and_true]

/-- Where the wiring is a permutation (R152), every line has a code bit of its own, so the code gives back the lines. -/
theorem scan_injective {c : Cfg} (hmap : KeyMapOk c) : Function.Injective (scan c) := by
  intro v w hvw
  apply BitVec.eq_of_getLsbD_eq
  intro j hj
  have hsurj : Function.Surjective fun i : Fin 4 => c.keyMap[i] := Finite.surjective_of_injective hmap
  obtain ⟨i, hi⟩ := hsurj ⟨j, hj⟩
  have hbit : scanBit c v i = scanBit c w i := by rw [← getLsbD_scan, ← getLsbD_scan, hvw]
  simpa [scanBit, hi] using hbit

/-- Settles O21: bit by bit, at both levels of all lines, and no other lines give those codes, since the scan is
injective. -/
theorem scanIsZeroExactlyWhenNoKeyIsPressed : Obligations.ScanIsZeroExactlyWhenNoKeyIsPressed := by
  intro c v
  have hhigh : scan c 0b1111#4 = 0#4 := scan_fill c true
  have hlow : scan c 0b0000#4 = 15#4 := scan_fill c false
  exact ⟨getLsbD_scan c v, hhigh, hlow,
    fun hmap => ⟨(scan_injective hmap).eq_iff' hhigh, (scan_injective hmap).eq_iff' hlow⟩⟩

/-! `KEYS` (R153). -/

/-- A move of the key lines writes `KEYIN` and `KEY_PEND` alone (R153). -/
theorem moveKeys_eq (v : Lines) (s : State) :
    moveKeys v s = { s with keyin := v, keyPend := (moveKeys v s).keyPend } := by
  simp [moveKeys]

/-- A `KEYS` step is the move of the lines (R153). -/
theorem performAgent_keys (v : Lines) (s : State) : performAgent (.keys v) s = .next (moveKeys v s) := rfl

/-- Settles O22: the flags after the move are those of `moveKeys_keyPend`. -/
theorem keyLineMoveSetsTheBankFlags : Obligations.KeyLineMoveSetsTheBankFlags := by
  intro s v hv
  refine ⟨bne_iff_ne.mpr hv, (moveKeys v s).keyPend, ?effect, moveKeys_keyPend v s⟩
  case effect => rw [performAgent_keys, ← moveKeys_eq]

/-! `KEYCHG b` (R154). -/

/-- The handlers' event ids (R97), and the mask that clears the flag of each one's bank alone. -/
theorem keyEvents_decode_and_mask :
    ∀ p ∈ [(0b00#2, Instr.keyChg0, 0b110#3), (0b01#2, .keyChg1, 0b101#3), (0b10#2, .keyChg2, 0b011#3)],
      p.1 ≠ 3#2 ∧ decodeEvent p.1 = p.2.1 ∧ ~~~ BitVec.twoPow 3 p.1.toNat = p.2.2 := by
  decide

/-- The dispatcher sets the tone and the LEDs of the scanned code, with the flag of its bank cleared (R154). -/
theorem keyChange_eq (ev : EventId) (s : State) (hev : ev ≠ 3#2) :
    keyChange ev s = setLeds (scan s.cfg s.keyin) (setTone (scan s.cfg s.keyin)
      { s with keyPend := s.keyPend &&& ~~~ BitVec.twoPow 3 ev.toNat }) := by
  rw [keyChange, enterHandler_key ev s hev]
  rfl

/-- `SETTONE` then `SETLEDS` of one code, as commands, have the effect of the two operations but for `RDATA`. -/
theorem exec_setTone_then_setLeds (k : KeyCode) (s : State) :
    ∃ t2 t3, exec (.setTone k) s = .next t2 ∧ exec (.setLeds k) t2 = .next t3 ∧
      setLeds k (setTone k s) = { t3 with rdata := s.rdata } := by
  refine ⟨_, _, exec_setTone k s, exec_setLeds k _, ?_⟩
  have hrdata : (setLeds k (setTone k s)).rdata = s.rdata := by rw [setLeds_rdata, setTone_rdata]
  rw [← hrdata]
  rfl

/-- Settles O23: the handler is the dispatcher's effect on the state with the flag cleared, which is that of the two
commands but for `RDATA`. -/
theorem keyChangeAppliesTheScannedCode : Obligations.KeyChangeAppliesTheScannedCode := by
  intro s p hp
  obtain ⟨hev, hdecode, hmask⟩ := keyEvents_decode_and_mask p hp
  obtain ⟨t2, t3, htone, hleds, heffect⟩ :=
    exec_setTone_then_setLeds (scan s.cfg s.keyin) { s with keyPend := s.keyPend &&& p.2.2 }
  refine ⟨hdecode, deliverable_key p.1 s hev, t2, t3, htone, hleds, ?_⟩
  rw [← hdecode, decodeEvent_key p.1 hev, keyChange_eq p.1 s hev, hmask, heffect]

end Sys2Proof.Machine

/-!
The Note Sequencer (43_sequencer.md): the accepted `SEQSTART` as one update (R167, R168), `TICK` (R169, R170), the beat
timer's clock edge (R175, R176), and who moves `PLAYING` (R165, R172).
-/

namespace Sys2Proof.Machine

/-- A word is a sentinel exactly when its bits 7:0 are 0 (20_memory.md R63). -/
theorem isSentinel_iff (n : Note) : isSentinel n = true ↔ n.extractLsb' 0 8 = 0#8 := beq_iff_eq

theorem isSentinel_eq_false_iff (n : Note) : isSentinel n = false ↔ n.extractLsb' 0 8 ≠ 0#8 := beq_eq_false_iff_ne

/-! `SEQSTART` (R167, R168). -/

/-- The script ends at or before entry `i` exactly when some entry up to `i` is a sentinel (R166). -/
theorem scriptLength_le_iff (c : Cfg) (i : Fin 16) :
    scriptLength c ≤ i.val ↔ ∃ j : Fin 16, j ≤ i ∧ (c.script[j]).extractLsb' 0 8 = 0#8 := by
  constructor
  · intro hle
    have hlen : scriptLength c < 16 := Nat.lt_of_le_of_lt hle i.isLt
    have hsent := isSentinel_at_length c (BitVec.ofFin ⟨scriptLength c, hlen⟩) rfl
    exact ⟨⟨scriptLength c, hlen⟩, hle, (isSentinel_iff _).mp hsent⟩
  · rintro ⟨j, hji, hj⟩
    by_contra hlt
    have hnote := not_isSentinel_of_lt c (BitVec.ofFin j) (Nat.lt_of_le_of_lt hji (Nat.not_le.mp hlt))
    exact (isSentinel_eq_false_iff _).mp hnote hj

/-- The buffer after the copy, in the words of R168. -/
theorem copyScript_notes_eq_script_or_zero (s : State) (i : Fin 16) :
    (copyScript s).notes[i] =
      if (∃ j : Fin 16, j ≤ i ∧ (s.cfg.script[j]).extractLsb' 0 8 = 0#8) then 0x000#12 else s.cfg.script[i] := by
  have hcopy : (copyScript s).notes[i] = if i.val < scriptLength s.cfg then s.cfg.script[i] else 0x000#12 :=
    copyScript_get s i.val i.isLt
  rw [hcopy]
  by_cases hend : scriptLength s.cfg ≤ i.val
  · rw [if_neg (Nat.not_lt.mpr hend), if_pos ((scriptLength_le_iff s.cfg i).mp hend)]
  · rw [if_pos (Nat.not_le.mp hend), if_neg (mt (scriptLength_le_iff s.cfg i).mpr hend)]

/-- An accepted `SEQSTART` sounds the script's first note and, beside that, writes the sequencer's fields, the beat timer and
`KEY_IE` (R167). -/
theorem startPlayback_eq (s : State) (hfirst : isSentinel (memReadScript s.cfg 0#4) = false) :
    startPlayback s =
      { setLeds (noteCode (memReadScript s.cfg 0#4)) (setTone (noteCode (memReadScript s.cfg 0#4)) s) with
        keyIe := false, notes := (copyScript s).notes, seqIdx := 0#4, seqRem := noteDur (memReadScript s.cfg 0#4),
        bcnt := 0x0000#16, beatRun := true, playing := true } := by
  have hread : memReadNotes (copyScript (disableKeyInterrupt s)) 0#4 = memReadScript s.cfg 0#4 :=
    copyScript_first (disableKeyInterrupt s) hfirst
  have htone := setTone_comm (noteCode (memReadScript s.cfg 0#4)) s
    (fun t => { t with keyIe := false, notes := (copyScript s).notes, seqIdx := 0#4,
                       seqRem := noteDur (memReadScript s.cfg 0#4) })
    (fun _ => rfl) (fun _ _ _ _ _ => rfl) rfl
  rw [startPlayback, hread, startTimer_beat]
  exact congrArg (fun t => { setLeds (noteCode (memReadScript s.cfg 0#4)) t with
    bcnt := 0x0000#16, beatRun := true, playing := true }) htone

/-- `SEQSTART` while Playing or with an empty script changes nothing (R167). -/
theorem seqStart_ignored {s : State}
    (h : s.playing = true ∨ isSentinel (memReadScript s.cfg 0#4) = true) : seqStart s = s :=
  h.elim (seqStart_playing s) (seqStart_empty s)

/-- Settles O26: an ignored `SEQSTART` leaves the state to `RDATA`; an accepted one sounds the first note as the two commands
do and fills the buffer with the copy. -/
theorem seqStartIsIgnoredOrBeginsPlayback : Obligations.SeqStartIsIgnoredOrBeginsPlayback := by
  intro arg s
  refine ⟨decodeCommand_seqStart arg, ?ignored, ?accepted⟩
  case ignored =>
    intro h
    rw [exec_seqStart, seqStart_ignored (h.imp_right (isSentinel_iff _).mpr), driveRdata]
  case accepted =>
    intro hidle hnote
    have hfirst : isSentinel (memReadScript s.cfg 0#4) = false := (isSentinel_eq_false_iff _).mpr hnote
    obtain ⟨t2, t3, htone, hleds, hsound⟩ := exec_setTone_then_setLeds (noteCode (memReadScript s.cfg 0#4)) s
    refine ⟨t2, t3, (copyScript s).notes, htone, hleds, ?_, copyScript_notes_eq_script_or_zero s⟩
    rw [exec_seqStart, seqStart_accepted s hidle hfirst, startPlayback_eq s hfirst, hsound]
    rfl

/-! `TICK` (R169, R170). -/

/-- A delivered `TICK` is the handler's effect on the sequencer (R169). -/
theorem exec_tick (s : State) : exec .tick s = .next (tick s) := rfl

/-- A note's last tick is one with less than 2 ticks left (R169). -/
theorem not_two_le_iff_toNat_lt (d : Duration) : ¬ 2#8 ≤ d ↔ d.toNat < 2 := Nat.not_le

/-- On a note's last tick before another note, `TICK` sounds that note as `SETTONE` and `SETLEDS` do and, beside that,
writes only its request, the index and the count (R169). -/
theorem tick_next_eq (s : State) (hplay : s.playing = true) (hlast : ¬ 2#8 ≤ s.seqRem)
    (hnote : isSentinel (memReadNotes s (s.seqIdx + 1#4)) = false) :
    tick s =
      { setLeds (noteCode (memReadNotes s (s.seqIdx + 1#4))) (setTone (noteCode (memReadNotes s (s.seqIdx + 1#4))) s) with
        beatPend := false, seqIdx := s.seqIdx + 1#4, seqRem := noteDur (memReadNotes s (s.seqIdx + 1#4)) } := by
  rw [tick_next s hplay hlast hnote]
  exact congrArg (setLeds _) (setTone_comm _ s
    (fun t => { t with beatPend := false, seqIdx := s.seqIdx + 1#4,
                       seqRem := noteDur (memReadNotes s (s.seqIdx + 1#4)) })
    (fun _ => rfl) (fun _ _ _ _ _ => rfl) rfl)

/-- On the last tick of all, `TICK` turns the LEDs off and silences the tone beside what it writes itself (R170). -/
theorem tick_stop_eq (s : State) (hplay : s.playing = true) (hlast : ¬ 2#8 ≤ s.seqRem)
    (hsent : isSentinel (memReadNotes s (s.seqIdx + 1#4)) = true) :
    tick s =
      { setLeds 0#4 s with
        beatPend := false, seqIdx := s.seqIdx + 1#4, seqRem := 0#8, beatRun := false, toneCom := false, toneCs := false,
        spkAct := false, keyIe := true, playing := false } := by
  rw [tick_stop s hplay hlast hsent, setTone_silence]
  rfl

/-- Settles O27: the four cases of `TICK`, each the branch of R169 that the state selects. -/
theorem tickCountsDownOrAdvances : Obligations.TickCountsDownOrAdvances := by
  refine ⟨rfl, ?idle, ?countdown, ?next, ?stop⟩
  case idle =>
    intro s hidle
    rw [exec_tick, tick_idle s hidle]
  case countdown =>
    intro s hplay hrem
    rw [exec_tick, tick_countdown s hplay hrem]
  case next =>
    rintro s n hplay hlast rfl hnote
    obtain ⟨t2, t3, htone, hleds, hsound⟩ :=
      exec_setTone_then_setLeds (noteCode (memReadNotes s (s.seqIdx + 1#4))) s
    refine ⟨t2, t3, htone, hleds, ?_⟩
    rw [exec_tick, tick_next_eq s hplay ((not_two_le_iff_toNat_lt _).mpr hlast) ((isSentinel_eq_false_iff _).mpr hnote),
      hsound]
    rfl
  case stop =>
    rintro s n hplay hlast rfl hsent
    refine ⟨tick s, exec_tick s, ?_⟩
    rw [tick_stop_eq s hplay ((not_two_le_iff_toNat_lt _).mpr hlast) ((isSentinel_iff _).mpr hsent)]
    exact ⟨rfl, rfl, rfl, rfl⟩

/-- Settles O28: the last tick of all is `SETLEDS 0` with silence and the sequencer's own writes; `RDATA` is not driven. -/
theorem tickStopsAtTheSentinel : Obligations.TickStopsAtTheSentinel := by
  intro s hplay hlast hsent
  refine ⟨_, exec_setLeds 0#4 s, ?_⟩
  rw [exec_tick, tick_stop_eq s hplay ((not_two_le_iff_toNat_lt _).mpr hlast) ((isSentinel_iff _).mpr hsent)]
  rfl

/-! `BCLK` (R175), one lemma for each of stopped, counting and request. -/

theorem bclk_of_stopped {s : State} (hrun : s.beatRun = false) : bclk s = s := by
  simp [bclk, hrun]

theorem bclk_of_lt_beatPeriod {s : State} (hrun : s.beatRun = true) (hlt : s.bcnt.toNat < s.cfg.beatPeriod.toNat) :
    bclk s = { s with bcnt := s.bcnt + 1#16 } := by
  have hperiod : ¬ s.cfg.beatPeriod ≤ s.bcnt := Nat.not_le.mpr hlt
  simp [bclk, hrun, hperiod]

theorem bclk_of_beatPeriod_le {s : State} (hrun : s.beatRun = true) (hle : s.cfg.beatPeriod.toNat ≤ s.bcnt.toNat) :
    bclk s = { s with bcnt := 0x0000#16, beatPend := true } := by
  have hperiod : s.cfg.beatPeriod ≤ s.bcnt := hle
  simp [bclk, hrun, hperiod]

/-- A `BCLK` step is the effect of one clock edge on the beat timer (R175). -/
theorem performAgent_bclk (s : State) : performAgent .bclk s = .next (bclk s) := rfl

/-- A `BCLK` edge can come exactly while no tick waits (R176). -/
theorem stepEnabled_bclk_iff (s : State) : stepEnabled .bclk s = true ↔ s.beatPend = false := by
  rw [stepEnabled, Bool.not_eq_true']

/-- Settles O33: the edge waits for a pending tick, and its effect is that of the case of R175 that holds. -/
theorem beatClockEdgeCountsOrRequests : Obligations.BeatClockEdgeCountsOrRequests := by
  intro s
  rw [performAgent_bclk]
  refine ⟨stepEnabled_bclk_iff s, ?stopped, ?counting, ?request⟩
  case stopped =>
    intro hrun
    rw [bclk_of_stopped hrun]
  case counting =>
    intro hrun hlt
    rw [bclk_of_lt_beatPeriod hrun hlt]
  case request =>
    intro hrun hle
    rw [bclk_of_beatPeriod_le hrun hle]

/-! `PLAYING`: the operations that keep it, and the three that move it (R165, R172). -/

@[simp] theorem tclk_playing (s : State) : (tclk s).playing = s.playing := by
  unfold tclk; split <;> [(split <;> rfl); rfl]

@[simp] theorem bclk_playing (s : State) : (bclk s).playing = s.playing := by
  unfold bclk; split <;> [(split <;> rfl); rfl]

@[simp] theorem moveKeys_playing (v : Lines) (s : State) : (moveKeys v s).playing = s.playing := by
  rw [moveKeys_eq]

@[simp] theorem keyChange_playing (ev : EventId) (s : State) : (keyChange ev s).playing = s.playing := by
  simp [keyChange, dispatchKeys]

/-- `SEQSTART` leaves `PLAYING` as it is, or begins the playback of a script whose first entry is a note (R167). -/
theorem seqStart_playing_cases (s : State) :
    (seqStart s).playing = s.playing ∨
      ((seqStart s).playing = true ∧ (s.cfg.script[0]).extractLsb' 0 8 ≠ 0#8) := by
  by_cases hignored : s.playing = true ∨ isSentinel (memReadScript s.cfg 0#4) = true
  · exact .inl (by rw [seqStart_ignored hignored])
  · obtain ⟨hplay, hnote⟩ := not_or.mp hignored
    have hidle : s.playing = false := Bool.eq_false_iff.mpr hplay
    have hfirst : isSentinel (memReadScript s.cfg 0#4) = false := Bool.eq_false_iff.mpr hnote
    refine .inr ⟨?_, (isSentinel_eq_false_iff _).mp hfirst⟩
    rw [seqStart_accepted s hidle hfirst, startPlayback_eq s hfirst]

/-- `TICK` leaves `PLAYING` as it is, or ends the playback on a note's last tick with a sentinel next (R169, R170). -/
theorem tick_playing_cases (s : State) :
    (tick s).playing = s.playing ∨
      ((tick s).playing = false ∧ s.seqRem.toNat < 2 ∧
        (memReadNotes s (s.seqIdx + 1#4)).extractLsb' 0 8 = 0#8) := by
  obtain ⟨_, htick⟩ | ⟨_, _, htick⟩ | ⟨_, _, _, htick⟩ | ⟨_, hlast, hsent, htick⟩ := tick_cases s
  · exact .inl (by rw [htick])
  · exact .inl (by rw [htick])
  · exact .inl (by rw [htick, setLeds_playing, setTone_playing])
  · refine .inr ⟨?_, (not_two_le_iff_toNat_lt _).mp hlast, (isSentinel_iff _).mp hsent⟩
    rw [htick, setLeds_playing, setTone_playing]

/-- Only the words with `OP` = 0x4 are `SEQSTART` (30_encoding.md R93). -/
theorem opField_of_decodeCommand_eq_seqStart {cw : CommandWord} {arg : Arg} (h : decodeCommand cw = .seqStart arg) :
    opField cw = 0x4#4 := by
  unfold decodeCommand at h
  split at h
  case h_5 hop => exact BitVec.eq_of_toNat_eq hop
  all_goals cases h

/-- A step keeps `PLAYING`, or is reset, or the tick that ends a playback, or the `SEQSTART` that begins one. -/
theorem performAgent_playing_cases {a : AgentStep} {s t : State} (h : performAgent a s = .next t) :
    t.playing = s.playing ∨
    (t.playing = false ∧ (a = .rst ∨ (a = .arb 0b11#2 ∧ s.seqRem.toNat < 2 ∧
      (memReadNotes s (s.seqIdx + 1#4)).extractLsb' 0 8 = 0#8))) ∨
    (t.playing = true ∧
      ∃ cw, a = .host cw ∧ cw.extractLsb' 4 4 = 0x4#4 ∧ (s.cfg.script[0]).extractLsb' 0 8 ≠ 0#8) := by
  obtain ⟨_, _, _, _, rfl⟩ | ⟨_, _, _, _, rfl⟩ | ⟨cw, arg, ha, hdecode, rfl⟩ | ⟨_, _, _, _, _, _, rfl⟩ |
    ⟨_, _, _, rfl⟩ | ⟨ha, rfl⟩ | ⟨_, _, rfl⟩ | ⟨_, rfl⟩ | ⟨_, rfl⟩ | ⟨ha, rfl⟩ := performAgent_cases h
  case inr.inr.inl =>
    rw [driveRdata_playing]
    exact (seqStart_playing_cases s).imp_right fun ⟨hplay, hnote⟩ =>
      .inr ⟨hplay, cw, ha, opField_of_decodeCommand_eq_seqStart hdecode, hnote⟩
  case inr.inr.inr.inr.inr.inl =>
    exact (tick_playing_cases s).imp_right fun ⟨hidle, hend⟩ => .inl ⟨hidle, .inr ⟨ha, hend⟩⟩
  case inr.inr.inr.inr.inr.inr.inr.inr.inr => exact .inr (.inl ⟨assertReset_playing s, .inl ha⟩)
  all_goals exact .inl (by simp)

/-- Settles O48: of the cases of `performAgent_playing_cases`, only reset and the last tick clear `PLAYING`, and only an
accepted `SEQSTART` sets it. -/
theorem playbackEndsOnlyAtItsSentinelOrByReset : Obligations.PlaybackEndsOnlyAtItsSentinelOrByReset := by
  intro a rest s t hstep
  obtain ⟨_, hperform⟩ := (takeAgentStep_next_iff a rest s t).mp hstep
  obtain hkeep | ⟨hidle, hend⟩ | ⟨hplay, hbegin⟩ := performAgent_playing_cases hperform
  case inl =>
    rw [beginStep_playing] at hkeep
    exact ⟨fun hplay hidle => absurd (hidle.symm.trans (hkeep.trans hplay)) Bool.false_ne_true,
      fun hidle hplay => absurd (hidle.symm.trans (hkeep.symm.trans hplay)) Bool.false_ne_true⟩
  case inr.inl => exact ⟨fun _ _ => hend, fun _ hplay => absurd (hidle.symm.trans hplay) Bool.false_ne_true⟩
  case inr.inr => exact ⟨fun _ hidle => absurd (hidle.symm.trans hplay) Bool.false_ne_true, fun _ _ => hbegin⟩

end Sys2Proof.Machine

/-!
The read-back commands (44_readback.md): what `RDREG` shows of each field (R190, 10_state.md R40 to R48), and the entries
that `RDNOTE` and `RDFREQ` return (R191, R192). A read view is an OR of fields at separate bit ranges, so a bit range of a
view shows the one field that stands there.
-/

namespace Sys2Proof.Machine

/-! One field of a read view, by bit and by bit range. -/

theorem getLsbD_viewField {w : Nat} (v : BitVec w) (lo i : Nat) :
    (viewField v lo).getLsbD i = (decide (lo ≤ i ∧ i < 16) && v.getLsbD (i - lo)) := by
  rw [viewField, zext16, BitVec.getLsbD_shiftLeft, BitVec.getLsbD_setWidth]
  have hlow : i < 16 → i - lo < 16 := Nat.lt_of_le_of_lt (Nat.sub_le i lo)
  grind

@[simp] theorem getElem_viewField {w : Nat} (v : BitVec w) (lo i : Nat) (h : i < 16) :
    (viewField v lo)[i] = (decide (lo ≤ i) && v.getLsbD (i - lo)) := by
  simp only [← BitVec.getLsbD_eq_getElem, getLsbD_viewField, h, and_true]

/-- A field shows unchanged at its own bit range. -/
@[simp] theorem extractLsb'_viewField_same {w lo : Nat} (h : lo + w ≤ 16) (v : BitVec w) :
    (viewField v lo).extractLsb' lo w = v := by
  apply BitVec.eq_of_getLsbD_eq
  intro i hi
  rw [BitVec.getLsbD_extractLsb', getLsbD_viewField, Nat.add_sub_cancel_left]
  simp [hi, show lo + i < 16 by omega]

/-- A field leaves the bits below and above it 0. -/
@[simp] theorem extractLsb'_viewField_disjoint {w lo start len : Nat} (h : start + len ≤ lo ∨ lo + w ≤ start)
    (v : BitVec w) :
    (viewField v lo).extractLsb' start len = 0#len := by
  apply BitVec.eq_of_getLsbD_eq
  intro i hi
  rw [BitVec.getLsbD_extractLsb', getLsbD_viewField, BitVec.getLsbD_zero]
  rcases h with hbelow | habove
  · simp [show ¬ lo ≤ start + i by omega]
  · simp [BitVec.getLsbD_of_ge v (start + i - lo) (by omega)]

/-- A one-bit field shows at its own bit alone. -/
@[simp] theorem getElem_viewBit (b : Bool) (lo i : Nat) (h : i < 16) :
    (viewBit b lo)[i] = (decide (i = lo) && b) := by
  have hbit : i = lo ↔ lo ≤ i ∧ i - lo = 0 := by omega
  rw [viewBit, getElem_viewField, BitVec.getLsbD_ofBool, ← Bool.and_assoc, ← Bool.decide_and]
  simp only [hbit]

/-- A one-bit field leaves the bits below and above it 0. -/
@[simp] theorem extractLsb'_viewBit_disjoint {lo start len : Nat} (h : start + len ≤ lo ∨ lo + 1 ≤ start)
    (b : Bool) :
    (viewBit b lo).extractLsb' start len = 0#len :=
  extractLsb'_viewField_disjoint h (BitVec.ofBool b)

/-! The read views with more than one field (10_state.md R41, R44 to R46), and the padded port (R43). -/

theorem toneCtrlView_fields (s : State) :
    (toneCtrlView s).getLsbD 0 = s.toneCom ∧ (toneCtrlView s).getLsbD 1 = s.toneCs ∧
    (toneCtrlView s).getLsbD 2 = s.spkAct ∧ (toneCtrlView s).getLsbD 3 = s.ocLvl ∧
    (toneCtrlView s).getLsbD 4 = spkPad s ∧ (toneCtrlView s).extractLsb' 5 11 = 0#11 := by
  simp [toneCtrlView, BitVec.extractLsb'_or]

theorem ledportView_fields (p : Port) :
    (zext16 p).extractLsb' 0 8 = p ∧ (zext16 p).extractLsb' 8 8 = 0#8 := by
  have hview : zext16 p = viewField p 0 := (BitVec.shiftLeft_zero _).symm
  rw [hview]
  exact ⟨extractLsb'_viewField_same (by decide) p, extractLsb'_viewField_disjoint (by decide) p⟩

theorem keysView_fields (s : State) :
    (keysView s).extractLsb' 0 4 = s.keyin ∧ (keysView s).extractLsb' 4 4 = scan s.cfg s.keyin ∧
    (keysView s).extractLsb' 8 8 = 0#8 := by
  refine ⟨?_, keysView_code s, ?_⟩ <;>
    simp [keysView, BitVec.extractLsb'_or]

theorem intView_fields (s : State) :
    (intView s).getLsbD 0 = s.keyIe ∧ (intView s).extractLsb' 1 3 = s.keyPend ∧
    (intView s).getLsbD 4 = s.beatPend ∧ (intView s).extractLsb' 5 11 = 0#11 := by
  simp [intView, BitVec.extractLsb'_or]

theorem seqView_fields (s : State) :
    (seqView s).getLsbD 0 = s.playing ∧ (seqView s).getLsbD 1 = s.beatRun ∧ (seqView s).extractLsb' 2 2 = 0#2 ∧
    (seqView s).extractLsb' 4 4 = s.seqIdx ∧ (seqView s).extractLsb' 8 8 = s.seqRem := by
  simp [seqView, BitVec.extractLsb'_or]

/-- Settles O35: `x` is `regView s`; numbers 1 and 3 to 6 show the fields of their views, and the numbers above 8 are
reserved. -/
theorem rdRegReturnsTheReadViews : Obligations.RdRegReturnsTheReadViews := by
  intro s
  refine ⟨regView s, ?effect, rfl, toneCtrlView_fields s, rfl, ledportView_fields s.ledport, keysView_fields s,
    intView_fields s, seqView_fields s, rfl, rfl, fun r hr => regView_eq_zero_of_reserved hr s⟩
  case effect =>
    intro r
    refine ⟨decodeCommand_rdReg r, ?_⟩
    rw [exec_rdReg, driveRdata]

/-! `RDNOTE` (R191). -/

theorem decodeCommand_rdNote (i : NoteIndex) : decodeCommand (0x6#4 ++ i) = .rdNote i := by simp [decodeCommand]

/-- `RDNOTE i` drives entry `i` of `NOTES` and changes nothing else (R191). -/
theorem exec_rdNote (i : NoteIndex) (s : State) :
    exec (.rdNote i) s = .next (driveRdata (zext16 (memReadNotes s i)) s) := rfl

/-- Settles O37: the word decodes to `RDNOTE i`, which drives the entry and writes `RDATA` alone. -/
theorem rdNoteReturnsTheEntry : Obligations.RdNoteReturnsTheEntry := by
  intro i s
  refine ⟨decodeCommand_rdNote i, ?_⟩
  rw [exec_rdNote, driveRdata, zext16, memReadNotes]

/-! `RDFREQ` (R192). -/

/-- The Frequency Table has an entry for each of the codes 0 to 13 (R192). -/
theorem freqView_eq_entry_of_lt {k : KeyCode} (h : k.toNat < 14) (c : Cfg) : freqView c k = c.freq[k.toNat] :=
  dif_pos (Nat.le_of_lt_succ h)

/-- Settles O38: the codes 0 to 13 show their entry, the two above it show 0, and `RDFREQ` writes `RDATA` alone. -/
theorem rdFreqReturnsTheEntryOrZero : Obligations.RdFreqReturnsTheEntryOrZero := by
  refine ⟨decodeCommand_rdFreq, ?entry, ?missing⟩
  case entry =>
    intro k s h
    rw [exec_rdFreq, freqView_eq_entry_of_lt h, driveRdata]
  case missing =>
    intro k s h
    rw [exec_rdFreq, freqView_eq_zero_of_gt h, driveRdata]

end Sys2Proof.Machine

/-!
The arbiter's delivery rule (60_exceptions.md R204): which requests are deliverable, and when an `ARB` step is enabled.
-/

namespace Sys2Proof.Machine

theorem stepEnabled_arb (ev : EventId) (s : State) : stepEnabled (.arb ev) s = deliverable ev s := rfl

/-- The key banks' event ids are those below `TICK`'s. -/
theorem eventId_toNat_lt_three_iff (ev : EventId) : ev.toNat < 3 ↔ ev ≠ 3#2 := by
  have hrange := ev.isLt
  rw [ne_eq, ← BitVec.toNat_inj, BitVec.toNat_ofNat]
  omega

/-- A key bank's request is deliverable exactly when the bank's flag is set and `KEY_IE` is 1 (R204). -/
theorem deliverable_key_iff {ev : EventId} (hkey : ev ≠ 3#2) (s : State) :
    deliverable ev s = true ↔ s.keyPend.getLsbD ev.toNat = true ∧ s.keyIe = true := by
  rw [deliverable_key ev s hkey, Bool.and_eq_true]

/-- Settles O8: every event id is `TICK`'s or that of one of the three key banks, and each bank has its event id. -/
theorem deliverableIsPendingAndNotMasked : Obligations.DeliverableIsPendingAndNotMasked := by
  intro s
  refine ⟨fun ev hev => deliverable_key ev s ((eventId_toNat_lt_three_iff ev).mp hev), deliverable_tick s, ?arb⟩
  case arb =>
    simp only [stepEnabled_arb]
    constructor
    · rintro ⟨ev, hev⟩
      obtain rfl | hkey := eq_or_ne ev 3#2
      · exact .inr hev
      · exact .inl ⟨⟨ev.toNat, (eventId_toNat_lt_three_iff ev).mpr hkey⟩, (deliverable_key_iff hkey s).mp hev⟩
    · rintro (⟨b, hb⟩ | hpend)
      · have hkey : BitVec.ofFin b.castSucc ≠ 3#2 := (eventId_toNat_lt_three_iff _).mp b.isLt
        exact ⟨BitVec.ofFin b.castSucc, (deliverable_key_iff hkey s).mpr hb⟩
      · exact ⟨3#2, hpend⟩

end Sys2Proof.Machine

/-!
The encodings (30_encoding.md R91 to R98): a command word is its two fields, and `OP` alone selects the row.
-/

namespace Sys2Proof.Machine

theorem decodeCommand_reservedOp0 (arg : Arg) : decodeCommand (0x0#4 ++ arg) = .reservedOp0 arg := by
  simp [decodeCommand]

theorem decodeCommand_reservedOp8F {op : BitVec 4} (hop : 8 ≤ op.toNat) (arg : Arg) :
    decodeCommand (op ++ arg) = .reservedOp8F op arg := by
  rw [decodeCommand_of_eight_le_opField (by rwa [opField_append]), opField_append, argField_append]

/-- Settles O2: the words of each row decode to the row, with the operand that was encoded; only `RESERVED_OP8_F` needs
that its opcode is one of the row. -/
theorem decodeOfEncodeIsTheOperation : Obligations.DecodeOfEncodeIsTheOperation := by
  intro i hwf
  cases i with
  | setTone k => exact decodeCommand_setTone k
  | setLeds k => exact decodeCommand_setLeds k
  | scanKeys arg => exact decodeCommand_scanKeys arg
  | seqStart arg => exact decodeCommand_seqStart arg
  | rdReg r => exact decodeCommand_rdReg r
  | rdNote i => exact decodeCommand_rdNote i
  | rdFreq k => exact decodeCommand_rdFreq k
  | reservedOp0 arg => exact decodeCommand_reservedOp0 arg
  | reservedOp8F op arg => exact decodeCommand_reservedOp8F (of_decide_eq_true hwf) arg
  | keyChg0 => rfl
  | keyChg1 => rfl
  | keyChg2 => rfl
  | tick => rfl

/-- A command word is put together from its two fields (R91). -/
theorem opField_append_argField (cw : CommandWord) : opField cw ++ argField cw = cw :=
  BitVec.extractLsb'_append_extractLsb'_eq_extractLsb' (w := 8) rfl |>.trans BitVec.extractLsb'_eq_self

/-- The opcode of a decoded word is the word's own, and its operand is the word's `ARG`, so encoding it gives the word
back. -/
theorem encode_decodeCommand (cw : CommandWord) : encode (decodeCommand cw) = .command cw := by
  have hword : ∀ op : BitVec 4, (opField cw).toNat = op.toNat → commandWord op (argField cw) = cw := by
    intro op hop
    rw [← BitVec.eq_of_toNat_eq hop, commandWord, opField_append_argField]
  unfold decodeCommand
  split
  case h_1 hop => exact congrArg Code.command (hword 0x0#4 hop)
  case h_2 hop => exact congrArg Code.command (hword 0x1#4 hop)
  case h_3 hop => exact congrArg Code.command (hword 0x2#4 hop)
  case h_4 hop => exact congrArg Code.command (hword 0x3#4 hop)
  case h_5 hop => exact congrArg Code.command (hword 0x4#4 hop)
  case h_6 hop => exact congrArg Code.command (hword 0x5#4 hop)
  case h_7 hop => exact congrArg Code.command (hword 0x6#4 hop)
  case h_8 hop => exact congrArg Code.command (hword 0x7#4 hop)
  case h_9 => exact congrArg Code.command (hword (opField cw) rfl)

/-- The only operand check of R95 holds of what decoding answers: its last arm is left to the opcodes 8 to 15. -/
theorem wellFormed_decodeCommand (cw : CommandWord) : (decodeCommand cw).wellFormed = true := by
  unfold decodeCommand
  split
  case h_9 =>
    simp only [imp_false] at *
    have hop : 8 ≤ (opField cw).toNat := by omega
    exact decide_eq_true hop
  all_goals rfl

/-- Settles O3: a command word is its two fields again; the four event ids are read off. -/
theorem encodeOfDecodeIsTheCode : Obligations.EncodeOfDecodeIsTheCode := by
  intro c
  cases c with
  | command cw => exact ⟨wellFormed_decodeCommand cw, encode_decodeCommand cw⟩
  | event ev => revert ev; decide

/-- Settles O4: each word is read by the model's decoder. -/
theorem sampleWordsDecode : Obligations.SampleWordsDecode := by
  unfold Obligations.SampleWordsDecode
  decide

/-! Which row a word belongs to (R93): no bit of `ARG` is looked at. -/

theorem append_and_0xF0 (op arg : BitVec 4) : (op ++ arg) &&& 0xF0#8 = op ++ 0x0#4 := by
  have hfields : (op ++ arg) &&& (0xF#4 ++ 0x0#4) = (op &&& 0xF#4) ++ (arg &&& 0x0#4) := BitVec.and_append
  rwa [show op &&& 0xF#4 = op from BitVec.and_allOnes, BitVec.and_zero] at hfields

theorem append_and_0x80 (op arg : BitVec 4) : (op ++ arg) &&& 0x80#8 = (op &&& 0x8#4) ++ 0x0#4 := by
  have hfields : (op ++ arg) &&& (0x8#4 ++ 0x0#4) = (op &&& 0x8#4) ++ (arg &&& 0x0#4) := BitVec.and_append
  rwa [BitVec.and_zero] at hfields

/-- A command row's mask is 0xF0 or 0x80, which leaves `ARG` out. -/
theorem selects_append (r : OpcodeRow) (op : BitVec 4) (arg : Arg) :
    r.selects (op ++ arg) = r.selects (op ++ 0x0#4) := by
  cases r <;> simp only [OpcodeRow.selects, OpcodeRow.matchMask, append_and_0xF0, append_and_0x80]

/-- The decoder branches on `OP`, and the arms' rows do not depend on their operand. -/
theorem row_decodeCommand_append (op : BitVec 4) (arg : Arg) :
    (decodeCommand (op ++ arg)).row = (decodeCommand (op ++ 0x0#4)).row := by
  simp only [decodeCommand, opField_append]
  split <;> rfl

/-- The rows of the sixteen opcodes (R93, R95). -/
theorem selects_iff_row_of_arg_zero (r : OpcodeRow) :
    ∀ op : BitVec 4, r.selects (op ++ 0x0#4) = true ↔ (decodeCommand (op ++ 0x0#4)).row = r := by
  cases r <;> decide

/-- Settles O1: neither the rows' masks nor the decoder look at `ARG`, and the sixteen opcodes have their rows. -/
theorem commandWordSelectsExactlyItsRow : Obligations.CommandWordSelectsExactlyItsRow := by
  intro w r
  rw [← opField_append_argField w, selects_append, row_decodeCommand_append]
  exact selects_iff_row_of_arg_zero r (opField w)

end Sys2Proof.Machine

/-!
The command line (30_encoding.md R99): its mnemonic and its operand are each read back by themselves.
-/

namespace Sys2Proof.Machine

/-- A word without a space that stands before a space is the line's first word. -/
theorem splitSpaces_append_space {w : Text} (hw : ' ' ∉ w) (rest : Text) :
    splitSpaces (w ++ ' ' :: rest) = w :: splitSpaces rest := by
  induction w with
  | nil => simp [splitSpaces]
  | cons c w ih =>
    rw [List.mem_cons, not_or] at hw
    obtain ⟨hc, hw⟩ := hw
    simp [splitSpaces, Ne.symm hc, ih hw]

/-- A line without a space is one word. -/
theorem splitSpaces_word {c : Char} {w : Text} (hw : ' ' ∉ c :: w) : splitSpaces (c :: w) = [c :: w] := by
  induction w generalizing c with
  | nil => simp_all [splitSpaces, Ne.symm]
  | cons d w ih =>
    rw [List.mem_cons, not_or] at hw
    obtain ⟨hc, hw⟩ := hw
    rw [splitSpaces, if_neg (Ne.symm hc), ih hw]

/-- What R99 asks of the text of an operand: it has no space, and it reads back as the number. -/
theorem decimalText_reads_back (k : BitVec 4) :
    (∃ c cs, decimalText k = c :: cs) ∧ ' ' ∉ decimalText k ∧ readNumber (decimalText k) = some k.toNat := by
  have hdigits : ∀ k : BitVec 4,
      (decimalText k).isEmpty = false ∧ ' ' ∉ decimalText k ∧ readNumber (decimalText k) = some k.toNat := by decide
  obtain ⟨hne, hspace, hread⟩ := hdigits k
  exact ⟨List.exists_cons_of_ne_nil fun h => by simp [h] at hne, hspace, hread⟩

/-- A mnemonic has no space, is no empty word, and names its row (R93, R99). -/
theorem mnemonic_names_row : ∀ r ∈ commandRows,
    ' ' ∉ r.mnemonic.toList ∧ r.mnemonic.toList.isEmpty = false ∧ rowOfMnemonic r.mnemonic.toList = some r := by
  decide

/-- The line of a mnemonic, a space and an operand is the command that the row builds of the operand (R99). -/
theorem parseCommand_mnemonic_operand {r : OpcodeRow} (hr : r ∈ commandRows) (k : BitVec 4) :
    parseCommand (r.mnemonic.toList ++ ' ' :: decimalText k) = buildCommand r (some k.toNat) := by
  obtain ⟨hspace, hne, hrow⟩ := mnemonic_names_row r hr
  obtain ⟨⟨c, cs, htext⟩, hdigits, hread⟩ := decimalText_reads_back k
  have hwords : wordsOf (r.mnemonic.toList ++ ' ' :: decimalText k) = [r.mnemonic.toList, decimalText k] := by
    rw [wordsOf, splitSpaces_append_space hspace, htext, splitSpaces_word (htext ▸ hdigits)]
    simp [hne]
  simp only [parseCommand, hwords, parseCommandWords, hrow, hread]

/-- A command whose text is a mnemonic and the operand, and which the row builds of that operand, reads back. -/
theorem operand_command_reads_back {r : OpcodeRow} {i : Instr} {k : BitVec 4} (hr : r ∈ commandRows)
    (htext : commandText i = some (r.mnemonic.toList ++ ' ' :: decimalText k))
    (hbuild : buildCommand r (some k.toNat) = .ok i) : ∃ t, commandText i = some t ∧ parseCommand t = .ok i :=
  ⟨_, htext, (parseCommand_mnemonic_operand hr k).trans hbuild⟩

/-- Settles O5: the two commands without an operand are two fixed lines; a line with an operand reads back word by word;
the range check of `buildCommand` refuses the numbers above 15. -/
theorem commandTextReadsBack : Obligations.CommandTextReadsBack := by
  refine ⟨?alone, ?operand, ?range⟩
  case alone => decide
  case operand =>
    intro k i hi
    simp only [List.mem_cons, List.not_mem_nil, or_false] at hi
    obtain rfl | rfl | rfl | rfl | rfl := hi
    · exact operand_command_reads_back (r := .setTone) (by decide) rfl (by simp [buildCommand, k.isLt])
    · exact operand_command_reads_back (r := .setLeds) (by decide) rfl (by simp [buildCommand, k.isLt])
    · exact operand_command_reads_back (r := .rdReg) (by decide) rfl (by simp [buildCommand, k.isLt])
    · exact operand_command_reads_back (r := .rdNote) (by decide) rfl (by simp [buildCommand, k.isLt])
    · exact operand_command_reads_back (r := .rdFreq) (by decide) rfl (by simp [buildCommand, k.isLt])
  case range =>
    intro n hn r hr
    have hout : ¬ n < 16 := by omega
    simp only [List.mem_cons, List.not_mem_nil, or_false] at hr
    obtain rfl | rfl | rfl | rfl | rfl := hr <;> simp [buildCommand, hout]

end Sys2Proof.Machine

/-!
What each agent's effect writes, as one equation for each operation (10_state.md R20, the column of writers): the state
before, with the fields that the operation may write put to what they are after it.
-/

namespace Sys2Proof.Machine

/-- `SETTONE` writes the four tone fields alone (40_tone.md R125). -/
theorem setTone_frame (k : KeyCode) (s : State) : setTone k s = withToneFields (toneFields (setTone k s)) s := by
  obtain rfl | ⟨hlow, hhigh⟩ | hinvalid := keyCode_cases k
  · rfl
  · rw [setTone_note k s hlow hhigh]; rfl
  · rw [setTone_invalid k s hinvalid]; rfl

/-- `TCLK` writes `TCNT` and `OC_LVL` alone (R128). -/
theorem tclk_frame (s : State) : tclk s = { s with tcnt := (tclk s).tcnt, ocLvl := (tclk s).ocLvl } := by
  unfold tclk; split <;> [(split <;> rfl); rfl]

/-- `BCLK` writes `BCNT` and `BEAT_PEND` alone (43_sequencer.md R175). -/
theorem bclk_frame (s : State) : bclk s = { s with bcnt := (bclk s).bcnt, beatPend := (bclk s).beatPend } := by
  unfold bclk; split <;> [(split <;> rfl); rfl]

/-- `KEYCHG` writes its pending flag and the outputs alone (42_keys.md R154). -/
theorem keyChange_frame {ev : EventId} (hev : ev ≠ 3#2) (s : State) :
    keyChange ev s =
      { withToneFields (toneFields (keyChange ev s)) s with
        keyPend := (keyChange ev s).keyPend, ledport := (keyChange ev s).ledport } := by
  rw [keyChange_eq ev s hev, setLeds_eq, setTone_frame]; rfl

/-- The two cases of `SEQSTART` (43_sequencer.md R167). -/
theorem seqStart_cases (s : State) :
    ((s.playing = true ∨ isSentinel (memReadScript s.cfg 0#4) = true) ∧ seqStart s = s) ∨
    (s.playing = false ∧ isSentinel (memReadScript s.cfg 0#4) = false ∧ seqStart s = startPlayback s) := by
  by_cases hignored : s.playing = true ∨ isSentinel (memReadScript s.cfg 0#4) = true
  · exact .inl ⟨hignored, seqStart_ignored hignored⟩
  · obtain ⟨hplay, hnote⟩ := not_or.mp hignored
    have hidle := Bool.eq_false_iff.mpr hplay
    have hfirst := Bool.eq_false_iff.mpr hnote
    exact .inr ⟨hidle, hfirst, seqStart_accepted s hidle hfirst⟩

/-- `SEQSTART` writes the outputs, `KEY_IE`, the sequencer's fields and the beat timer's alone (R167). -/
theorem seqStart_frame (s : State) :
    seqStart s =
      { withToneFields (toneFields (seqStart s)) s with
        ledport := (seqStart s).ledport, keyIe := (seqStart s).keyIe, playing := (seqStart s).playing,
        seqIdx := (seqStart s).seqIdx, seqRem := (seqStart s).seqRem, notes := (seqStart s).notes,
        beatRun := (seqStart s).beatRun, bcnt := (seqStart s).bcnt } := by
  obtain ⟨_, hkept⟩ | ⟨_, hfirst, haccepted⟩ := seqStart_cases s
  · rw [hkept]; rfl
  · rw [haccepted, startPlayback_eq s hfirst, setLeds_eq, setTone_frame]; rfl

/-- `TICK` writes its request, the outputs and the sequencer's fields but `NOTES` alone (R169, R170). -/
theorem tick_frame (s : State) :
    tick s =
      { withToneFields (toneFields (tick s)) s with
        ledport := (tick s).ledport, keyIe := (tick s).keyIe, beatPend := (tick s).beatPend,
        playing := (tick s).playing, seqIdx := (tick s).seqIdx, seqRem := (tick s).seqRem,
        beatRun := (tick s).beatRun } := by
  obtain ⟨_, htick⟩ | ⟨_, _, htick⟩ | ⟨_, _, _, htick⟩ | ⟨_, _, _, htick⟩ := tick_cases s
  · rw [htick]; rfl
  · rw [htick]; rfl
  · rw [htick, setLeds_eq, setTone_frame]; rfl
  · rw [htick, setLeds_eq, setTone_frame]; rfl

/-! One step: what `step` does with the list of coming steps (00_scope.md R7). -/

/-- Every operation answers a next state (60_exceptions.md R200). -/
theorem exec_completes (i : Instr) (s : State) : ∃ t, exec i s = .next t := by
  cases i <;> exact ⟨_, rfl⟩

theorem performAgent_completes (a : AgentStep) (s : State) : ∃ t, performAgent a s = .next t := by
  cases a with
  | host cw => exact exec_completes (decodeCommand cw) s
  | arb ev => exact exec_completes (decodeEvent ev) s
  | keys v => exact ⟨_, rfl⟩
  | tclk => exact ⟨_, rfl⟩
  | bclk => exact ⟨_, rfl⟩
  | rst => exact ⟨_, rfl⟩

/-- Where its agent is enabled, a listed step is the agent's effect. -/
theorem takeAgentStep_of_enabled {a : AgentStep} {s : State} (h : stepEnabled a s = true) (rest : List AgentStep) :
    takeAgentStep a rest s = performAgent a (beginStep rest s) := if_pos h

/-- Where its agent is not enabled, there is no such step. -/
theorem takeAgentStep_of_disabled {a : AgentStep} {s : State} (h : stepEnabled a s = false) (rest : List AgentStep) :
    takeAgentStep a rest s = .refused (.notEnabled a) := if_neg (Bool.eq_false_iff.mp h)

/-- Settles O9: an enabled listed step is the agent's effect on the state that `beginStep` leaves. -/
theorem stepRunsTheListedAgent : Obligations.StepRunsTheListedAgent := by
  intro s a rest hlisted henabled
  rw [step_listed hlisted, takeAgentStep_of_enabled henabled, beginStep]

/-- Settles O6: a `HOST` step is always enabled, and its effect is that of the decoded word. -/
theorem stepRunsTheDecodedCommand : Obligations.StepRunsTheDecodedCommand :=
  fun s cw rest hlisted => stepRunsTheListedAgent s (.host cw) rest hlisted rfl

/-- Settles O7: a delivery is enabled exactly when its request is deliverable, and its effect is the named handler's. -/
theorem stepRunsTheDeliveredHandler : Obligations.StepRunsTheDeliveredHandler :=
  fun s ev rest hlisted hdeliverable => stepRunsTheListedAgent s (.arb ev) rest hlisted hdeliverable

/-- Settles O11: each arm of `exec` answers a next state. -/
theorem everyOperationCompletes : Obligations.EveryOperationCompletes := exec_completes

/-- The steps that are not enabled (R153, R176, R204). -/
theorem stepEnabled_eq_false_iff (a : AgentStep) (s : State) :
    stepEnabled a s = false ↔
      (∃ ev, a = .arb ev ∧ deliverable ev s = false) ∨ a = .keys s.keyin ∨ (a = .bclk ∧ s.beatPend = true) := by
  cases a <;> simp [stepEnabled]

/-- A listed step is refused exactly when its agent is not enabled: an enabled one answers a next state. -/
theorem takeAgentStep_refused_iff (a : AgentStep) (rest : List AgentStep) (s : State) :
    takeAgentStep a rest s = .refused (.notEnabled a) ↔ stepEnabled a s = false := by
  refine ⟨fun hrefused => ?_, fun h => takeAgentStep_of_disabled h rest⟩
  by_contra henabled
  obtain ⟨t, ht⟩ := performAgent_completes a (beginStep rest s)
  rw [takeAgentStep_of_enabled (Bool.not_eq_false _ ▸ henabled), ht] at hrefused
  cases hrefused

/-- Settles O10: a listed step that is enabled answers a next state, and the disabled ones are those that R153, R176 and
R204 name. -/
theorem listedStepIsRefusedExactlyWhenDisabled : Obligations.ListedStepIsRefusedExactlyWhenDisabled := by
  intro s a rest hlisted
  rw [step_listed hlisted, takeAgentStep_refused_iff, ← stepEnabled_eq_false_iff]
  refine ⟨?_, Iff.rfl⟩
  cases henabled : stepEnabled a s
  · exact .inr rfl
  · rw [takeAgentStep_of_enabled henabled]
    exact .inl (performAgent_completes a _)

/-- Settles O55: the free choice is taken where it is enabled, and passes otherwise. -/
theorem unlistedStepIsSomeAgentsStep : Obligations.UnlistedStepIsSomeAgentsStep := by
  intro s hnone
  rw [step_free hnone, freeStep]
  cases henabled : stepEnabled (Config.agentChoice s.freeCount) s
  · refine ⟨beginStep [] s, rfl, .inr ?_⟩
    rw [beginStep, ← hnone]
  · obtain ⟨t, ht⟩ := performAgent_completes (Config.agentChoice s.freeCount) (beginStep [] s)
    exact ⟨t, ht, .inl ⟨_, (takeAgentStep_of_enabled henabled []).trans ht⟩⟩

/-- Settles O42: `RST` is always enabled, and puts the fields to the values of R52. -/
theorem resetPutsEveryFieldButTheKeyLines : Obligations.ResetPutsEveryFieldButTheKeyLines := by
  intro s rest hlisted
  rw [step_listed hlisted, takeAgentStep_of_enabled rfl]
  rfl

end Sys2Proof.Machine

/-!
The invariant (70_reset_and_hazards.md R257): each operation keeps it, so every step does, whichever agent takes it.
-/

namespace Sys2Proof.Machine

/-! The operations that commands and handlers share. -/

theorem memReadNotes_resetWith (c : Cfg) (v : Lines) (i : NoteIndex) :
    memReadNotes (State.resetWith c v) i = 0x000#12 := by
  simp [memReadNotes, State.resetWith]

theorem invariant_resetWith (c : Cfg) (v : Lines) : Invariant (State.resetWith c v) where
  keyIe_eq := rfl
  beatRun_eq := rfl
  beatPend_idle _ := rfl
  rem_pos := nofun
  note_sounds := nofun
  idx_lt := nofun
  com_eq_cs := rfl
  com_eq_act := rfl
  cmp_from_table := nofun
  led_unrouted _ _ := BitVec.getLsbD_zero
  bcnt_le := Nat.zero_le _
  notes_copied := nofun
  notes_end i _ := memReadNotes_resetWith c v i
  notes_empty_or_copied := .inl (memReadNotes_resetWith c v)

theorem Invariant.beginStep {s : State} (h : Invariant s) (rest : List AgentStep) : Invariant (beginStep rest s) :=
  { h with }

theorem Invariant.driveRdata {s : State} (h : Invariant s) (v : Word) : Invariant (driveRdata v s) :=
  { h with }

/-- `SETLEDS` writes no bit of the port that carries no LED, and nothing else of what the invariant speaks of. -/
theorem Invariant.setLeds {s : State} (h : Invariant s) (k : KeyCode) : Invariant (setLeds k s) :=
  { h with led_unrouted := fun j hj => (setLeds_unrouted k s j hj).trans (h.led_unrouted j hj) }

/-- `SETTONE` keeps the three flags equal, and takes the count of a note from the Frequency Table. -/
theorem Invariant.setTone {s : State} (h : Invariant s) (k : KeyCode) : Invariant (setTone k s) := by
  obtain rfl | ⟨hlow, hhigh⟩ | hinvalid := keyCode_cases k
  · rw [setTone_silence]
    exact { h with com_eq_cs := rfl, com_eq_act := rfl, cmp_from_table := nofun }
  · rw [setTone_note k s hlow hhigh]
    exact { h with com_eq_cs := rfl, com_eq_act := rfl, cmp_from_table := fun _ => ⟨⟨k.toNat, hhigh⟩, hlow, rfl⟩ }
  · rwa [setTone_invalid k s hinvalid]

/-! The operations, one by one. -/

theorem Invariant.keyChange {s : State} (h : Invariant s) {ev : EventId} (hev : ev ≠ 3#2) :
    Invariant (keyChange ev s) := by
  rw [keyChange_eq ev s hev]
  refine Invariant.setLeds (Invariant.setTone ?_ _) _
  exact { h with }

theorem Invariant.moveKeys {s : State} (h : Invariant s) (v : Lines) : Invariant (moveKeys v s) := by
  rw [moveKeys_eq]
  exact { h with }

theorem Invariant.tclk {s : State} (h : Invariant s) : Invariant (tclk s) := by
  rw [tclk_frame]
  exact { h with }

/-- A tick is requested only where the beat timer runs, so while Playing; and the counter stops at `BEAT_PERIOD`. -/
theorem Invariant.bclk {s : State} (h : Invariant s) : Invariant (bclk s) := by
  cases hrun : s.beatRun
  case false => rwa [bclk_of_stopped hrun]
  case true =>
    have hplay : s.playing = true := h.beatRun_eq ▸ hrun
    obtain hlt | hle := Nat.lt_or_ge s.bcnt.toNat s.cfg.beatPeriod.toNat
    · rw [bclk_of_lt_beatPeriod hrun hlt]
      have hcount : s.bcnt + 1#16 ≤ s.cfg.beatPeriod := by bv_omega
      exact { h with bcnt_le := hcount }
    · rw [bclk_of_beatPeriod_le hrun hle]
      exact { h with bcnt_le := Nat.zero_le _, beatPend_idle := fun hidle => absurd (hplay.symm.trans hidle) nofun }

theorem Invariant.assertReset {s : State} : Invariant (assertReset s) :=
  { invariant_resetWith s.cfg s.keyin with }

theorem noteDur_pos {n : Note} (h : isSentinel n = false) : 1 ≤ (noteDur n).toNat := by
  have hdur : noteDur n ≠ 0#8 := beq_eq_false_iff_ne.mp h
  bv_omega

/-- An entry of `NOTES` that is a note lies below the script's length: from there on the entries are 0x000. -/
theorem Invariant.lt_scriptLength {s : State} (h : Invariant s) {i : NoteIndex}
    (hnote : isSentinel (memReadNotes s i) = false) : i.toNat < scriptLength s.cfg := by
  by_contra hend
  rw [h.notes_end i (Nat.le_of_not_lt hend), isSentinel_zero] at hnote
  cases hnote

/-- `TICK` goes on to the next entry only where that is a note, and where it is none it goes Idle. -/
theorem Invariant.tick {s : State} (h : Invariant s) : Invariant (tick s) := by
  obtain ⟨hidle, htick⟩ | ⟨hplay, hrem, htick⟩ | ⟨hplay, hlast, hnote, htick⟩ | ⟨hplay, hlast, hsent, htick⟩ :=
    tick_cases s
  case inl =>
    rw [htick]
    exact { h with beatPend_idle := fun _ => rfl }
  case inr.inl =>
    rw [htick]
    have hleft : 1 ≤ (s.seqRem - 1#8).toNat := by bv_omega
    exact { h with beatPend_idle := fun _ => rfl, rem_pos := fun _ => hleft }
  case inr.inr.inl =>
    rw [htick]
    refine Invariant.setLeds (Invariant.setTone ?_ _) _
    exact { h with
      beatPend_idle := fun _ => rfl
      rem_pos := fun _ => noteDur_pos hnote
      note_sounds := fun _ => hnote
      idx_lt := fun _ => h.lt_scriptLength hnote }
  case inr.inr.inr =>
    rw [htick]
    refine Invariant.setLeds (Invariant.setTone ?_ _) _
    exact { h with
      keyIe_eq := rfl
      beatRun_eq := rfl
      beatPend_idle := fun _ => rfl
      rem_pos := nofun
      note_sounds := nofun
      idx_lt := nofun
      notes_copied := nofun }

/-- Where the script's first entry is a note, the script is not empty. -/
theorem scriptLength_pos {c : Cfg} (hfirst : isSentinel (memReadScript c 0#4) = false) : 0 < scriptLength c := by
  by_contra hempty
  rw [isSentinel_at_length c 0#4 (by rw [BitVec.toNat_zero]; omega)] at hfirst
  cases hfirst

/-- An accepted `SEQSTART` sounds entry 0, which is a note, of the copy that it makes of the script. -/
theorem Invariant.startPlayback {s : State} (h : Invariant s)
    (hfirst : isSentinel (memReadScript s.cfg 0#4) = false) : Invariant (startPlayback s) := by
  rw [startPlayback_eq s hfirst]
  have hnotes := memReadNotes_copyScript s
  have hcopied : ∀ i : NoteIndex, i.toNat < scriptLength s.cfg →
      memReadNotes (copyScript s) i = memReadScript s.cfg i := fun i hi => (hnotes i).trans (if_pos hi)
  have hsounding : Invariant (Machine.setLeds (noteCode (memReadScript s.cfg 0#4))
      (Machine.setTone (noteCode (memReadScript s.cfg 0#4)) s)) := Invariant.setLeds (h.setTone _) _
  exact { hsounding with
    keyIe_eq := rfl
    beatRun_eq := rfl
    beatPend_idle := nofun
    rem_pos := fun _ => noteDur_pos hfirst
    note_sounds := fun _ => (congrArg isSentinel (copyScript_first s hfirst)).trans hfirst
    idx_lt := fun _ => by simpa using scriptLength_pos hfirst
    bcnt_le := Nat.zero_le _
    notes_copied := fun _ => by simpa [memReadNotes] using hcopied
    notes_end := fun i hi => (hnotes i).trans (if_neg (Nat.not_lt.mpr (by simpa using hi)))
    notes_empty_or_copied := .inr (by simpa [memReadNotes] using hcopied) }

theorem Invariant.seqStart {s : State} (h : Invariant s) : Invariant (seqStart s) := by
  obtain ⟨_, hkept⟩ | ⟨_, hfirst, haccepted⟩ := seqStart_cases s
  · rwa [hkept]
  · rw [haccepted]
    exact h.startPlayback hfirst

/-! Every step. -/

theorem Invariant.performAgent {a : AgentStep} {s t : State} (h : Invariant s) (ht : performAgent a s = .next t) :
    Invariant t := by
  obtain ⟨_, k, _, _, rfl⟩ | ⟨_, k, _, _, rfl⟩ | ⟨_, _, _, _, rfl⟩ | ⟨_, v, _, _, _, _, rfl⟩ |
    ⟨_, _, hev, rfl⟩ | ⟨_, rfl⟩ | ⟨v, _, rfl⟩ | ⟨_, rfl⟩ | ⟨_, rfl⟩ | ⟨_, rfl⟩ := performAgent_cases ht
  · exact (h.setTone k).driveRdata _
  · exact (h.setLeds k).driveRdata _
  · exact h.seqStart.driveRdata _
  · exact h.driveRdata v
  · exact h.keyChange hev
  · exact h.tick
  · exact h.moveKeys v
  · exact h.tclk
  · exact h.bclk
  · exact Invariant.assertReset

theorem Invariant.takeAgentStep {a : AgentStep} {rest : List AgentStep} {s t : State} (h : Invariant s)
    (ht : takeAgentStep a rest s = .next t) : Invariant t :=
  (h.beginStep rest).performAgent ((takeAgentStep_next_iff a rest s t).mp ht).2

/-- Settles O45: a step is an agent's effect, which keeps the invariant, or a free choice that passes. -/
theorem everyStepKeepsTheInvariant : Obligations.EveryStepKeepsTheInvariant := by
  intro s t h hstep
  obtain ⟨a, rest, _, ht⟩ | ⟨_, rfl⟩ := step_next_cases hstep
  · exact (h.beginStep rest).performAgent ht
  · exact h.beginStep []

/-- Settles O44: the clauses that speak of a playback are vacuous after reset, and the others hold of zeros. -/
theorem invariantHoldsAfterReset : Obligations.InvariantHoldsAfterReset :=
  ⟨invariant_resetWith, invariant_resetWith _ _⟩

/-- Settles O46: the invariant holds at reset, and every step of the run keeps it. -/
theorem everyReachableStateMeetsTheInvariant : Obligations.EveryReachableStateMeetsTheInvariant :=
  fun c v as t => runTrace_keeps Invariant (fun _ _ _ _ => Invariant.takeAgentStep) as _ t (invariant_resetWith c v)

/-! What the invariant says of the key path and of a script with no sentinel. -/

/-- While Playing the key interrupt is masked (R211), so no key request is deliverable. -/
theorem Invariant.not_deliverable_key {s : State} (h : Invariant s) (hplay : s.playing = true) {ev : EventId}
    (hev : ev ≠ 3#2) : deliverable ev s = false := by
  rw [deliverable_key ev s hev, h.keyIe_eq, hplay, Bool.not_true, Bool.and_false]

/-- A tick is deliverable only while Playing. -/
theorem Invariant.playing_of_beatPend {s : State} (h : Invariant s) (hpend : s.beatPend = true) : s.playing = true := by
  by_contra hidle
  rw [h.beatPend_idle (Bool.eq_false_iff.mpr hidle)] at hpend
  cases hpend

/-- Settles O49: the sequencer owns the outputs, and a tick is deliverable, only while Playing, when `KEY_IE` = 0 masks
the key requests. -/
theorem playbackMasksTheKeyPath : Obligations.PlaybackMasksTheKeyPath := by
  intro s h
  refine ⟨?owner, ?together⟩
  case owner =>
    intro howner ev rest hev
    have hplay : s.playing = true := by simpa [owner] using howner
    exact takeAgentStep_of_disabled (a := .arb ev) (h.not_deliverable_key hplay hev) rest
  case together =>
    rintro ev hev ⟨hkey, htick⟩
    rw [h.not_deliverable_key (h.playing_of_beatPend htick) hev] at hkey
    cases hkey

/-- Settles O30: the entry that follows is the script's, and no entry of this script is a sentinel, so `TICK` takes one
of the branches that keep `PLAYING` and `KEY_IE`. -/
theorem unterminatedScriptNeverStops : Obligations.UnterminatedScriptNeverStops := by
  intro s h hlen hplay
  refine ⟨tick s, exec_tick s, ?_⟩
  have hmasked : s.keyIe = false := by rw [h.keyIe_eq, hplay]; rfl
  have hlt : (s.seqIdx + 1#4).toNat < scriptLength s.cfg := hlen ▸ (s.seqIdx + 1#4).isLt
  obtain ⟨hidle, _⟩ | ⟨_, _, htick⟩ | ⟨_, _, _, htick⟩ | ⟨_, _, hsent, _⟩ := tick_cases s
  case inl => exact absurd (hplay.symm.trans hidle) nofun
  case inr.inl => rw [htick]; exact ⟨hplay, hmasked⟩
  case inr.inr.inl => simp [htick, hplay, hmasked]
  case inr.inr.inr =>
    rw [h.notes_copied hplay _ hlt, not_isSentinel_of_lt s.cfg _ hlt] at hsent
    cases hsent

end Sys2Proof.Machine

/-!
The table of writers (10_state.md R20), and the tone timer's two 16-bit fields (70_reset_and_hazards.md R257 (i)).
-/

namespace Sys2Proof.Machine

/-- Settles O50: each operation writes what its frame equation names, and nothing else. -/
theorem onlyTheNamedStepsWriteEachField : Obligations.OnlyTheNamedStepsWriteEachField := by
  intro a rest s t ht isCommand isKeyDelivery isTick
  obtain ⟨_, hperform⟩ := (takeAgentStep_next_iff a rest s t).mp ht
  obtain ⟨cw, k, ha, hd, rfl⟩ | ⟨cw, k, ha, hd, rfl⟩ | ⟨cw, arg, ha, hd, rfl⟩ | ⟨_, v, _, _, _, _, rfl⟩ |
    ⟨ev, ha, hev, rfl⟩ | ⟨ha, rfl⟩ | ⟨v, ha, rfl⟩ | ⟨ha, rfl⟩ | ⟨ha, rfl⟩ | ⟨ha, rfl⟩ := performAgent_cases hperform
  · have hwriter : isCommand .setTone := ⟨cw, ha, by rw [hd]; rfl⟩
    rw [setTone_frame]
    simp [hwriter, withToneFields]
  · have hwriter : isCommand .setLeds := ⟨cw, ha, by rw [hd]; rfl⟩
    simp [hwriter]
  · have hwriter : isCommand .seqStart := ⟨cw, ha, by rw [hd]; rfl⟩
    rw [seqStart_frame]
    simp [hwriter, withToneFields]
  · simp
  · have hwriter : isKeyDelivery := ⟨ev, ha, hev⟩
    rw [keyChange_frame hev]
    simp [hwriter, withToneFields]
  · have hwriter : isTick := ha
    rw [tick_frame]
    simp [hwriter, withToneFields]
  · have hwriter : ∃ v, a = .keys v := ⟨v, ha⟩
    rw [moveKeys_eq]
    simp [hwriter]
  · rw [tclk_frame]
    simp [ha]
  · rw [bclk_frame]
    simp [ha]
  · simp [ha]

/-- No step changes the configuration (10_state.md R39). -/
theorem takeAgentStep_cfg {a : AgentStep} {rest : List AgentStep} {s t : State}
    (ht : takeAgentStep a rest s = .next t) : t.cfg = s.cfg :=
  (onlyTheNamedStepsWriteEachField a rest s t ht).1

/-! `TONE_CMP` and `TCNT` (R257 (i)). -/

/-- `SETTONE` keeps `TONE_CMP` or takes it from the Frequency Table's notes (R125). -/
theorem setTone_toneCmp_cases (k : KeyCode) (s : State) :
    (setTone k s).toneCmp = s.toneCmp ∨ ∃ j : Fin 14, 1 ≤ j.val ∧ (setTone k s).toneCmp = s.cfg.freq[j] := by
  obtain rfl | ⟨hlow, hhigh⟩ | hinvalid := keyCode_cases k
  · exact .inl rfl
  · exact .inr ⟨⟨k.toNat, hhigh⟩, hlow, by rw [setTone_note k s hlow hhigh]; rfl⟩
  · exact .inl (by rw [setTone_invalid k s hinvalid])

/-! Every agent's effect but reset leaves the tone as `SETTONE` of some code does; the codes 14 and 15 keep it. -/

theorem toneFields_setTone_invalid (s : State) : toneFields (setTone 15#4 s) = toneFields s := by
  rw [setTone_invalid 15#4 s (by decide)]

theorem seqStart_tone (s : State) : ∃ k, toneFields (seqStart s) = toneFields (setTone k s) := by
  obtain ⟨_, hkept⟩ | ⟨_, hfirst, haccepted⟩ := seqStart_cases s
  · rw [hkept]; exact ⟨15#4, (toneFields_setTone_invalid s).symm⟩
  · rw [haccepted, startPlayback_eq s hfirst]; exact ⟨_, rfl⟩

theorem tick_tone (s : State) : ∃ k, toneFields (tick s) = toneFields (setTone k s) := by
  obtain ⟨_, htick⟩ | ⟨_, _, htick⟩ | ⟨_, _, _, htick⟩ | ⟨_, _, _, htick⟩ := tick_cases s
  · rw [htick]; exact ⟨15#4, (toneFields_setTone_invalid s).symm⟩
  · rw [htick]; exact ⟨15#4, (toneFields_setTone_invalid s).symm⟩
  · rw [htick]; exact ⟨_, toneFields_setTone_congr _ rfl rfl⟩
  · rw [htick]; exact ⟨_, toneFields_setTone_congr _ rfl rfl⟩

theorem performAgent_tone {a : AgentStep} {s t : State} (h : performAgent a s = .next t) :
    t = assertReset s ∨ ∃ k, toneFields t = toneFields (setTone k s) := by
  have hkept : toneFields s = toneFields (setTone 15#4 s) := (toneFields_setTone_invalid s).symm
  obtain ⟨_, k, _, _, rfl⟩ | ⟨_, _, _, _, rfl⟩ | ⟨_, _, _, _, rfl⟩ | ⟨_, _, _, _, _, _, rfl⟩ |
    ⟨ev, _, hev, rfl⟩ | ⟨_, rfl⟩ | ⟨_, _, rfl⟩ | ⟨_, rfl⟩ | ⟨_, rfl⟩ | ⟨_, rfl⟩ := performAgent_cases h
  · exact .inr ⟨k, rfl⟩
  · exact .inr ⟨15#4, hkept⟩
  · exact .inr (seqStart_tone s)
  · exact .inr ⟨15#4, hkept⟩
  · rw [keyChange_eq ev s hev]
    exact .inr ⟨_, toneFields_setTone_congr _ rfl rfl⟩
  · exact .inr (tick_tone s)
  · rw [moveKeys_eq]
    exact .inr ⟨15#4, hkept⟩
  · rw [tclk_frame]
    exact .inr ⟨15#4, hkept⟩
  · rw [bclk_frame]
    exact .inr ⟨15#4, hkept⟩
  · exact .inl rfl

/-- A bound on `TONE_CMP` and on the Frequency Table's notes is a bound on `TONE_CMP` after every step. -/
theorem takeAgentStep_toneCmp_le {a : AgentStep} {rest : List AgentStep} {s t : State} {m : Nat}
    (ht : takeAgentStep a rest s = .next t) (hcmp : s.toneCmp.toNat ≤ m)
    (htable : ∀ k : Fin 14, 1 ≤ k.val → (s.cfg.freq[k]).toNat ≤ m) : t.toneCmp.toNat ≤ m := by
  obtain rfl | ⟨k, htone⟩ := performAgent_tone ((takeAgentStep_next_iff a rest s t).mp ht).2
  · exact Nat.zero_le m
  · obtain ⟨htoneCmp, _⟩ := (toneFields_eq_iff _ _).mp htone
    rw [htoneCmp]
    obtain hkept | ⟨j, hj, hnote⟩ := setTone_toneCmp_cases k (beginStep rest s)
    · rwa [hkept]
    · rw [hnote]; exact htable j hj

/-- An edge with the clock running counts up to `TONE_CMP` or starts again at 0 (R128). -/
theorem tclk_tcnt_le {s : State} (hcs : s.toneCs = true) : (tclk s).tcnt.toNat ≤ s.toneCmp.toNat := by
  obtain hlt | hle := Nat.lt_or_ge s.tcnt.toNat s.toneCmp.toNat
  · rw [tclk_of_lt_toneCmp hcs hlt]; bv_omega
  · rw [tclk_of_toneCmp_le hcs hle]; exact Nat.zero_le _

/-- Only an edge takes `TCNT` up, and not above `TONE_CMP`. -/
theorem takeAgentStep_tcnt_le {a : AgentStep} {rest : List AgentStep} {s t : State}
    (ht : takeAgentStep a rest s = .next t) : t.tcnt.toNat ≤ max s.tcnt.toNat s.toneCmp.toNat := by
  obtain ⟨_, hwriters, _⟩ := onlyTheNamedStepsWriteEachField a rest s t ht
  obtain ⟨_, hperform⟩ := (takeAgentStep_next_iff a rest s t).mp ht
  by_cases hkept : t.tcnt = s.tcnt
  · rw [hkept]; exact Nat.le_max_left ..
  · obtain rfl | rfl := hwriters (.inr hkept)
    · cases hperform
      cases hcs : s.toneCs
      · exact absurd (congrArg State.tcnt (tclk_of_stopped (s := beginStep rest s) hcs)) hkept
      · exact Nat.le_trans (tclk_tcnt_le (s := beginStep rest s) hcs) (Nat.le_max_right ..)
    · cases hperform; exact Nat.zero_le _

/-- Settles O51: only the edge and reset write `TCNT`, and `SETTONE` has its counts from the Frequency Table. -/
theorem toneCounterStaysBounded : Obligations.ToneCounterStaysBounded := by
  intro a rest s t m ht htcnt hcmp htable
  have hstep := takeAgentStep_tcnt_le ht
  refine ⟨Nat.le_trans hstep (Nat.max_le.mpr ⟨htcnt, hcmp⟩), takeAgentStep_toneCmp_le ht hcmp htable, hstep, ?edge⟩
  case edge =>
    rintro rfl hcs
    cases ((takeAgentStep_next_iff _ rest s t).mp ht).2
    rw [show (tclk (beginStep rest s)).toneCmp = s.toneCmp by rw [tclk_frame]; rfl]
    exact tclk_tcnt_le (s := beginStep rest s) hcs

end Sys2Proof.Machine

/-!
What R257 says of the past (70_reset_and_hazards.md R257 (g), (i), (k); log entry 22): the buffer before and after an
accepted `SEQSTART`, and the outputs during a playback.
-/

namespace Sys2Proof.Machine

/-! `NOTES` (R257 (k)). -/

theorem memReadNotes_congr {s t : State} (h : t.notes = s.notes) (i : NoteIndex) :
    memReadNotes t i = memReadNotes s i := by
  rw [memReadNotes, memReadNotes]; simp only [h]

/-- Reset clears the buffer, the `SEQSTART` that begins a playback fills it, and every other step keeps it. -/
theorem performAgent_notes_cases {a : AgentStep} {s t : State} (h : performAgent a s = .next t) :
    (a = .rst ∧ t = assertReset s) ∨
    (a ≠ .rst ∧ s.playing = false ∧ t.playing = true ∧ t.notes = (copyScript s).notes) ∨
    (a ≠ .rst ∧ (s.playing = false → t.playing = false) ∧ t.notes = s.notes) := by
  obtain ⟨_, _, rfl, _, rfl⟩ | ⟨_, _, rfl, _, rfl⟩ | ⟨_, _, rfl, _, rfl⟩ | ⟨_, _, rfl, _, _, _, rfl⟩ |
    ⟨_, rfl, hev, rfl⟩ | ⟨rfl, rfl⟩ | ⟨_, rfl, rfl⟩ | ⟨rfl, rfl⟩ | ⟨rfl, rfl⟩ | ⟨rfl, rfl⟩ := performAgent_cases h
  · exact .inr (.inr ⟨nofun, fun hidle => by simpa using hidle, by simp⟩)
  · exact .inr (.inr ⟨nofun, fun hidle => by simpa using hidle, by simp⟩)
  · obtain ⟨_, hkept⟩ | ⟨hidle, hfirst, haccepted⟩ := seqStart_cases s
    · rw [hkept]; exact .inr (.inr ⟨nofun, id, rfl⟩)
    · rw [haccepted, startPlayback_eq s hfirst]; exact .inr (.inl ⟨nofun, hidle, rfl, rfl⟩)
  · exact .inr (.inr ⟨nofun, id, rfl⟩)
  · exact .inr (.inr ⟨nofun, fun hidle => (keyChange_playing _ s).trans hidle, by rw [keyChange_frame hev]; rfl⟩)
  · refine .inr (.inr ⟨nofun, fun hidle => ?_, by rw [tick_frame]; rfl⟩)
    rw [tick_idle s hidle]; exact hidle
  · rw [moveKeys_eq]; exact .inr (.inr ⟨nofun, id, rfl⟩)
  · rw [tclk_frame]; exact .inr (.inr ⟨nofun, id, rfl⟩)
  · rw [bclk_frame]; exact .inr (.inr ⟨nofun, id, rfl⟩)
  · exact .inl ⟨rfl, rfl⟩

theorem PastInvariant.takeAgentStep {a : AgentStep} {rest : List AgentStep} {h : Past} {s t : State}
    (hp : PastInvariant h s) (ht : takeAgentStep a rest s = .next t) : PastInvariant (h.after a s t) t := by
  have htcnt : t.tcnt.toNat ≤ h.highestCompare :=
    Nat.le_trans (takeAgentStep_tcnt_le ht) (Nat.max_le.mpr ⟨hp.tcnt_le, hp.cmp_le⟩)
  have hcfg := takeAgentStep_cfg ht
  obtain ⟨rfl, rfl⟩ | ⟨hrst, hidle, hplay, hnotes⟩ | ⟨hrst, hidle, hnotes⟩ :=
    performAgent_notes_cases ((takeAgentStep_next_iff a rest s t).mp ht).2
  case inl =>
    exact {
      tcnt_le := Nat.zero_le _
      cmp_le := Nat.zero_le _
      notes_before := fun _ => memReadNotes_resetWith s.cfg s.keyin
      notes_after := nofun }
  case inr.inl =>
    have hcopied : (h.after a s t).copied = true := by simp_all
    exact {
      tcnt_le := le_max_of_le_left htcnt
      cmp_le := Nat.le_max_right ..
      notes_before := fun hnever => absurd (hcopied.symm.trans hnever) nofun
      notes_after := fun _ i => by
        rw [memReadNotes_congr hnotes, memReadNotes_copyScript, hcfg, beginStep_cfg] }
  case inr.inr =>
    have hcopied : (h.after a s t).copied = h.copied := by
      cases hp : s.playing <;> simp_all
    have hread : ∀ i, memReadNotes t i = memReadNotes s i := memReadNotes_congr (s := s) hnotes
    exact {
      tcnt_le := le_max_of_le_left htcnt
      cmp_le := Nat.le_max_right ..
      notes_before := fun hnever i => (hread i).trans (hp.notes_before (hcopied ▸ hnever) i)
      notes_after := fun hafter i => by rw [hread, hcfg]; exact hp.notes_after (hcopied ▸ hafter) i }

/-- Settles O58: `TCNT` stays below the counts held so far, and an accepted `SEQSTART` leaves the copy in the buffer. -/
theorem everyStepKeepsThePastInvariant : Obligations.EveryStepKeepsThePastInvariant :=
  fun _ _ _ _ _ _ hp ht => hp.takeAgentStep ht

/-! The outputs during a playback (R257 (g)). What it says depends on a few fields alone. -/

theorem setLeds_eq_self_congr {k : KeyCode} {s t : State} (hcfg : t.cfg = s.cfg) (hport : t.ledport = s.ledport)
    (h : setLeds k s = s) : setLeds k t = t := by
  have hroute : routeLeds s.cfg k s.ledport = s.ledport := congrArg State.ledport h
  have hroute' : routeLeds t.cfg k t.ledport = t.ledport := by rw [hcfg, hport, hroute]
  rw [setLeds, hroute']

theorem setTone_eq_self_of_toneFields {k : KeyCode} {s : State} (h : toneFields (setTone k s) = toneFields s) :
    setTone k s = s := by
  rw [setTone_frame, h, withToneFields_toneFields]

theorem setTone_eq_self_congr {k : KeyCode} {s t : State} (hcfg : t.cfg = s.cfg) (htone : toneFields t = toneFields s)
    (h : setTone k s = s) : setTone k t = t :=
  setTone_eq_self_of_toneFields (by rw [toneFields_setTone_congr k hcfg htone, h, htone])

/-- The LEDs and the tone are those of the code: setting them to it again changes nothing. -/
structure ShowsCode (k : KeyCode) (s : State) : Prop where
  leds : setLeds k s = s
  tone : setTone k s = s

theorem showsCode_set (k : KeyCode) (s : State) : ShowsCode k (setLeds k (setTone k s)) :=
  ⟨setLeds_setLeds k k (setTone k s), by rw [← setLeds_setTone, setTone_idem]⟩

theorem ShowsCode.congr {k : KeyCode} {s t : State} (h : ShowsCode k s) (hcfg : t.cfg = s.cfg)
    (hport : t.ledport = s.ledport) (htone : toneFields t = toneFields s) : ShowsCode k t :=
  ⟨setLeds_eq_self_congr hcfg hport h.leds, setTone_eq_self_congr hcfg htone h.tone⟩

theorem latestToneCode_congr {s t : State} (h : t.notes = s.notes) (n : Nat) :
    latestToneCode t n = latestToneCode s n := by
  induction n with
  | zero => simp only [latestToneCode, memReadNotes_congr h]
  | succ n ih => simp only [latestToneCode, memReadNotes_congr h, ih]

/-- The fields that (g) speaks of are the same. -/
structure SameOutputs (s t : State) : Prop where
  cfg : t.cfg = s.cfg
  notes : t.notes = s.notes
  playing : t.playing = s.playing
  seqIdx : t.seqIdx = s.seqIdx
  ledport : t.ledport = s.ledport
  tone : toneFields t = toneFields s

theorem SequencerOwnsOutputs.congr {start : ToneFields} {s t : State} (h : SequencerOwnsOutputs start s)
    (hsame : SameOutputs s t) : SequencerOwnsOutputs start t where
  leds_show_note hplay := by
    rw [memReadNotes_congr hsame.notes, hsame.seqIdx]
    exact setLeds_eq_self_congr hsame.cfg hsame.ledport (h.leds_show_note (hsame.playing ▸ hplay))
  tone_is_latest hplay k hk := by
    rw [latestToneCode_congr hsame.notes, hsame.seqIdx] at hk
    exact setTone_eq_self_congr hsame.cfg hsame.tone (h.tone_is_latest (hsame.playing ▸ hplay) k hk)
  tone_is_start hplay hwf hnone := by
    rw [latestToneCode_congr hsame.notes, hsame.seqIdx] at hnone
    exact hsame.tone.trans (h.tone_is_start (hsame.playing ▸ hplay) (hsame.cfg ▸ hwf) hnone)
  tone_is_left hplay hwf := by
    rw [toneLeftBy_congr start hsame.cfg hsame.notes, hsame.seqIdx]
    exact hsame.tone.trans (h.tone_is_left (hsame.playing ▸ hplay) (hsame.cfg ▸ hwf))

theorem SequencerOwnsOutputs.of_idle {start : ToneFields} {s : State} (hidle : s.playing = false) :
    SequencerOwnsOutputs start s := by
  have hnot : s.playing ≠ true := Bool.eq_false_iff.mp hidle
  exact ⟨fun h => absurd h hnot, fun h => absurd h hnot, fun h => absurd h hnot, fun h => absurd h hnot⟩

/-! Notes that are reached one after the other. -/

/-- The latest code at the entry after `j` is that entry's, or else the latest one at `j`, unless `j` is the last. -/
theorem latestToneCode_next (s : State) (j : NoteIndex) :
    latestToneCode s (j + 1#4).toNat =
      if (noteCode (memReadNotes s (j + 1#4))).toNat ≤ Config.kMax then some (noteCode (memReadNotes s (j + 1#4)))
      else if j + 1#4 = 0#4 then none else latestToneCode s j.toNat := by
  by_cases hwrap : j + 1#4 = 0#4
  · rw [hwrap, if_pos rfl]; rfl
  · have hnat : (j + 1#4).toNat = j.toNat + 1 := by bv_omega
    have hidx : BitVec.ofNat 4 (j.toNat + 1) = j + 1#4 := by rw [← hnat, BitVec.ofNat_toNat, BitVec.setWidth_eq]
    rw [hnat, latestToneCode, hidx, if_neg hwrap]

theorem toneLeftBy_next (s : State) (start : ToneFields) {j : NoteIndex} (hwrap : j + 1#4 ≠ 0#4) :
    toneLeftBy s start (j + 1#4).toNat =
      toneFields (setTone (noteCode (memReadNotes s (j + 1#4))) (withToneFields (toneLeftBy s start j.toNat) s)) := by
  have hnat : (j + 1#4).toNat = j.toNat + 1 := by bv_omega
  have hidx : BitVec.ofNat 4 (j.toNat + 1) = j + 1#4 := by rw [← hnat, BitVec.ofNat_toNat, BitVec.setWidth_eq]
  rw [hnat, toneLeftBy, hidx]

/-- Under `SCRIPT_WF` the index of the note that sounds is not the last one, so it does not wrap. -/
theorem Invariant.next_ne_zero {s : State} (h : Invariant s) (hplay : s.playing = true) (hwf : ScriptWf s.cfg) :
    s.seqIdx + 1#4 ≠ 0#4 := by
  have hidx := h.idx_lt hplay
  obtain ⟨hlen, _⟩ := hwf
  bv_omega

/-- The first note of a playback is entry 0, sounded on what `SEQSTART` found. -/
theorem startPlayback_ownsOutputs {s : State} (hfirst : isSentinel (memReadScript s.cfg 0#4) = false) :
    SequencerOwnsOutputs (toneFields s) (startPlayback s) := by
  generalize hnow : startPlayback s = t
  rw [startPlayback_eq s hfirst] at hnow
  generalize hcode : noteCode (memReadScript s.cfg 0#4) = code at hnow
  have hnote : noteCode (memReadNotes t 0#4) = code := by
    rw [memReadNotes_congr (s := copyScript s) (by rw [← hnow]), copyScript_first s hfirst, hcode]
  have hidx : t.seqIdx = 0#4 := by rw [← hnow]
  have hcfg : t.cfg = s.cfg := by rw [← hnow, setLeds_cfg, setTone_cfg]
  have htone : toneFields t = toneFields (setTone code s) := by rw [← hnow]; rfl
  have hlatest : latestToneCode t 0 = if code.toNat ≤ Config.kMax then some code else none := by
    rw [latestToneCode, hnote]
  have hshows : ShowsCode code t :=
    (showsCode_set code s).congr (by rw [← hnow]) (by rw [← hnow]) (by rw [← hnow]; rfl)
  refine ⟨fun _ => by rw [hidx, hnote, hshows.leds], fun _ k hk => ?latest, fun _ _ hnone => ?start, fun _ _ => ?left⟩
  case latest =>
    rw [hidx, BitVec.toNat_zero, hlatest] at hk
    obtain ⟨_, hsome⟩ := Option.ite_none_right_eq_some.mp hk
    cases hsome
    exact hshows.tone
  case start =>
    rw [hidx, BitVec.toNat_zero, hlatest, ite_eq_right_iff] at hnone
    rw [htone, setTone_invalid code s (Nat.lt_of_not_le fun hle => nomatch hnone hle)]
  case left =>
    rw [hidx, BitVec.toNat_zero, toneLeftBy, hnote, htone]
    exact toneFields_setTone_congr code hcfg.symm rfl

/-- A tick that goes on to the next entry sounds it on what the entries before it left. -/
theorem SequencerOwnsOutputs.tick_next {start : ToneFields} {s : State} (h : SequencerOwnsOutputs start s)
    (hinv : Invariant s) (hplay : s.playing = true) (hlast : ¬ 2#8 ≤ s.seqRem)
    (hnote : isSentinel (memReadNotes s (s.seqIdx + 1#4)) = false) : SequencerOwnsOutputs start (tick s) := by
  generalize hnow : tick s = t
  rw [tick_next_eq s hplay hlast hnote] at hnow
  generalize hcode : noteCode (memReadNotes s (s.seqIdx + 1#4)) = code at hnow
  have hidx : t.seqIdx = s.seqIdx + 1#4 := by rw [← hnow]
  have hnotes : t.notes = s.notes := by rw [← hnow, setLeds_notes, setTone_notes]
  have hcfg : t.cfg = s.cfg := by rw [← hnow, setLeds_cfg, setTone_cfg]
  have htone : toneFields t = toneFields (setTone code s) := by rw [← hnow]; rfl
  have hlatest := latestToneCode_next s s.seqIdx
  rw [hcode] at hlatest
  have hshows : ShowsCode code t :=
    (showsCode_set code s).congr (by rw [← hnow]) (by rw [← hnow]) (by rw [← hnow]; rfl)
  refine ⟨fun _ => ?leds, fun _ k hk => ?latest, fun _ hwf hnone => ?start, fun _ hwf => ?left⟩
  case leds => rw [hidx, memReadNotes_congr hnotes, hcode, hshows.leds]
  case latest =>
    rw [hidx, latestToneCode_congr hnotes, hlatest] at hk
    split at hk
    · cases hk
      exact hshows.tone
    · rename_i hinvalid
      rw [setTone_invalid code s (Nat.lt_of_not_le hinvalid)] at htone
      split at hk
      · cases hk
      · exact setTone_eq_self_congr hcfg htone (h.tone_is_latest hplay k hk)
  case start =>
    rw [hcfg] at hwf
    rw [hidx, latestToneCode_congr hnotes, hlatest, if_neg (hinv.next_ne_zero hplay hwf), ite_eq_iff] at hnone
    obtain ⟨_, hsome⟩ | ⟨hinvalid, hnone⟩ := hnone
    · cases hsome
    · rw [htone, setTone_invalid code s (Nat.lt_of_not_le hinvalid), h.tone_is_start hplay hwf hnone]
  case left =>
    rw [hcfg] at hwf
    rw [hidx, toneLeftBy_congr start hcfg hnotes, toneLeftBy_next s start (hinv.next_ne_zero hplay hwf), hcode,
      ← h.tone_is_left hplay hwf, withToneFields_toneFields, htone]

theorem SequencerOwnsOutputs.tick {start : ToneFields} {s : State} (h : SequencerOwnsOutputs start s)
    (hinv : Invariant s) : SequencerOwnsOutputs start (tick s) := by
  obtain ⟨hidle, htick⟩ | ⟨_, _, htick⟩ | ⟨hplay, hlast, hnote, _⟩ | ⟨_, _, _, htick⟩ := tick_cases s
  · exact .of_idle (by rw [htick]; exact hidle)
  · rw [htick]
    exact h.congr ⟨rfl, rfl, rfl, rfl, rfl, rfl⟩
  · exact h.tick_next hinv hplay hlast hnote
  · exact .of_idle (by rw [htick, setLeds_playing, setTone_playing])

/-! Which steps there are during a playback, and which begin one. -/

/-- While Playing, a step that the proviso of R257 allows is a tick, or ends the playback, or keeps the outputs: the key
requests are masked (R211), and `SEQSTART` is ignored (R167). -/
theorem performAgent_of_playing {a : AgentStep} {s t : State} (hinv : Invariant s) (hplay : s.playing = true)
    (hoff : keepsHandsOff a s = true) (henabled : stepEnabled a s = true) (ht : performAgent a s = .next t) :
    (a = .arb 3#2 ∧ t = tick s) ∨ t.playing = false ∨ SameOutputs s t := by
  obtain ⟨cw, _, rfl, hdecode, _⟩ | ⟨cw, _, rfl, hdecode, _⟩ | ⟨_, _, _, _, rfl⟩ | ⟨_, _, _, _, _, _, rfl⟩ |
    ⟨ev, rfl, hev, _⟩ | ⟨ha, rfl⟩ | ⟨_, _, rfl⟩ | ⟨_, rfl⟩ | ⟨_, rfl⟩ | ⟨_, rfl⟩ := performAgent_cases ht
  · simp [keepsHandsOff, drivesOutputs, Instr.row, hplay, hdecode] at hoff
  · simp [keepsHandsOff, drivesOutputs, Instr.row, hplay, hdecode] at hoff
  · rw [seqStart_playing s hplay]
    exact .inr (.inr ⟨rfl, rfl, rfl, rfl, rfl, rfl⟩)
  · exact .inr (.inr ⟨rfl, rfl, rfl, rfl, rfl, rfl⟩)
  · rw [stepEnabled_arb, hinv.not_deliverable_key hplay hev] at henabled
    cases henabled
  · exact .inl ⟨ha, rfl⟩
  · rw [moveKeys_eq]; exact .inr (.inr ⟨rfl, rfl, rfl, rfl, rfl, rfl⟩)
  · rw [tclk_frame]; exact .inr (.inr ⟨rfl, rfl, rfl, rfl, rfl, rfl⟩)
  · rw [bclk_frame]; exact .inr (.inr ⟨rfl, rfl, rfl, rfl, rfl, rfl⟩)
  · exact .inr (.inl rfl)

/-- From Idle, a step stays Idle or is an accepted `SEQSTART` (R165). -/
theorem performAgent_of_idle {a : AgentStep} {s t : State} (hidle : s.playing = false)
    (ht : performAgent a s = .next t) :
    t.playing = false ∨
      (isSentinel (memReadScript s.cfg 0#4) = false ∧ t = driveRdata 0x0000#16 (startPlayback s)) := by
  obtain ⟨_, _, _, _, rfl⟩ | ⟨_, _, _, _, rfl⟩ | ⟨_, _, _, _, rfl⟩ | ⟨_, _, _, _, _, _, rfl⟩ |
    ⟨_, _, _, rfl⟩ | ⟨_, rfl⟩ | ⟨_, _, rfl⟩ | ⟨_, rfl⟩ | ⟨_, rfl⟩ | ⟨_, rfl⟩ := performAgent_cases ht
  case inr.inr.inl =>
    obtain ⟨_, hkept⟩ | ⟨_, hfirst, haccepted⟩ := seqStart_cases s
    · exact .inl (by rw [hkept]; exact hidle)
    · exact .inr ⟨hfirst, by rw [haccepted]⟩
  case inr.inr.inr.inr.inr.inl => exact .inl (by rw [tick_idle s hidle]; exact hidle)
  all_goals exact .inl (by simp [hidle])

theorem SequencerOwnsOutputs.takeAgentStep {start : ToneFields} {a : AgentStep} {rest : List AgentStep} {s t : State}
    (h : SequencerOwnsOutputs start s) (hinv : Invariant s) (hoff : keepsHandsOff a s = true)
    (ht : takeAgentStep a rest s = .next t) :
    SequencerOwnsOutputs (if s.playing then start else toneFields s) t ∧
      (s.playing = true → t.playing = true → toneFields t ≠ toneFields s ∨ t.ledport ≠ s.ledport → a = .arb 3#2) := by
  obtain ⟨henabled, hperform⟩ := (takeAgentStep_next_iff a rest s t).mp ht
  rw [← stepEnabled_beginStep a rest s] at henabled
  have hbegin : SequencerOwnsOutputs start (beginStep rest s) := h.congr ⟨rfl, rfl, rfl, rfl, rfl, rfl⟩
  have hoff' : keepsHandsOff a (beginStep rest s) = true := by cases a <;> exact hoff
  cases hplay : s.playing
  case false =>
    rw [if_neg Bool.false_ne_true]
    refine ⟨?_, nofun⟩
    obtain hidle | ⟨hfirst, rfl⟩ := performAgent_of_idle (s := beginStep rest s) hplay hperform
    · exact .of_idle hidle
    · exact (startPlayback_ownsOutputs (s := beginStep rest s) hfirst).congr ⟨rfl, rfl, rfl, rfl, rfl, rfl⟩
  case true =>
    rw [if_pos rfl]
    obtain ⟨ha, rfl⟩ | hidle | hsame :=
      performAgent_of_playing (hinv.beginStep rest) hplay hoff' henabled hperform
    · exact ⟨hbegin.tick (hinv.beginStep rest), fun _ _ _ => ha⟩
    · exact ⟨.of_idle hidle, fun _ hplays => absurd (hidle.symm.trans hplays) nofun⟩
    · exact ⟨hbegin.congr hsame, fun _ _ hdiff => absurd hdiff (by
        rw [hsame.tone, hsame.ledport]; exact not_or.mpr ⟨fun hne => hne rfl, fun hne => hne rfl⟩)⟩

/-- Settles O47: an accepted `SEQSTART` sounds entry 0, a tick that goes on sounds the next entry, and no other step
that the proviso allows writes an output during a playback. -/
theorem playbackOwnsTheOutputs : Obligations.PlaybackOwnsTheOutputs :=
  fun _ _ _ _ _ hinv h hoff ht => h.takeAgentStep hinv hoff ht

/-- Settles O59: both past clauses hold at reset, and every step keeps them together with the invariant. -/
theorem everyRunFromResetMeetsThePastInvariant : Obligations.EveryRunFromResetMeetsThePastInvariant := by
  intro c v as t hrun
  refine ⟨?past, fun hoff => ?outputs⟩
  case past =>
    have hstart : PastInvariant (Past.start (State.resetWith c v)) (State.resetWith c v) :=
      ⟨Nat.le_refl 0, Nat.le_refl 0, fun _ => memReadNotes_resetWith c v, nofun⟩
    exact runTrace_keeps_past PastInvariant (fun _ _ _ _ _ => PastInvariant.takeAgentStep) as _ _ t hstart hrun
  case outputs =>
    have hkept := runTrace_keeps_past_handsOff
      (fun h s => Invariant s ∧ SequencerOwnsOutputs h.toneAtStart s)
      (fun _ _ _ _ _ ⟨hinv, howns⟩ hoff ht => ⟨hinv.takeAgentStep ht, (howns.takeAgentStep hinv hoff ht).1⟩)
      as (Past.start (State.resetWith c v)) _ t ⟨invariant_resetWith c v, .of_idle rfl⟩ hoff hrun
    exact hkept.2

end Sys2Proof.Machine

/-!
What the operations do not read (00_scope.md R19, 20_memory.md R61, R74, 60_exceptions.md R212): a disguise changes the
configuration and the fields of the clocks and of the model's list, and an operation that reads none of what it changes
does the same under it.
-/

namespace Sys2Proof.Machine

/-- A change of the configuration, of the fields that R212 drops, and of the model's list and counter. -/
structure Disguise where
  cfg : Cfg → Cfg := id
  tcnt : Word → Word := id
  bcnt : Word → Word := id
  ocLvl : Bool → Bool := id
  beatPend : Bool → Bool := id
  inputs : List AgentStep → List AgentStep := id
  freeCount : Nat → Nat := id

/-- The state under a disguise. -/
def disguise (d : Disguise) (s : State) : State :=
  { s with
    cfg := d.cfg s.cfg, tcnt := d.tcnt s.tcnt, bcnt := d.bcnt s.bcnt, ocLvl := d.ocLvl s.ocLvl,
    beatPend := d.beatPend s.beatPend, inputs := d.inputs s.inputs, freeCount := d.freeCount s.freeCount }

/-- The disguise keeps the notes of the Frequency Table and the wiring, and the values that operations put in the fields
it changes. -/
structure Disguise.Harmless (d : Disguise) : Prop where
  freq : ∀ (c : Cfg) (k : Nat) (hk : k < 14), 1 ≤ k → (d.cfg c).freq[k] = c.freq[k]
  ledMap : ∀ c, (d.cfg c).ledMap = c.ledMap
  keyMap : ∀ c, (d.cfg c).keyMap = c.keyMap
  keyBank : ∀ c, (d.cfg c).keyBank = c.keyBank
  tcnt_zero : d.tcnt 0x0000#16 = 0x0000#16
  bcnt_zero : d.bcnt 0x0000#16 = 0x0000#16
  ocLvl_false : d.ocLvl false = false
  beatPend_false : d.beatPend false = false

section
variable {d : Disguise} (hd : d.Harmless)
include hd

/-! The operations that commands and handlers share. -/

theorem setTone_disguise (k : KeyCode) (s : State) : setTone k (disguise d s) = disguise d (setTone k s) := by
  obtain rfl | ⟨hlow, hhigh⟩ | hinvalid := keyCode_cases k
  · rfl
  · rw [setTone_note k _ hlow hhigh, setTone_note k s hlow hhigh,
      show (disguise d s).cfg.freq[k.toNat] = s.cfg.freq[k.toNat] from hd.freq s.cfg k.toNat hhigh hlow]
    rfl
  · rw [setTone_invalid k _ hinvalid, setTone_invalid k s hinvalid]

theorem setLeds_disguise (k : KeyCode) (s : State) : setLeds k (disguise d s) = disguise d (setLeds k s) := by
  have hroute : routeLeds (disguise d s).cfg k s.ledport = routeLeds s.cfg k s.ledport := by
    simp only [routeLeds, writeLed, disguise, hd.ledMap]
  exact congrArg (fun port => { disguise d s with ledport := port }) hroute

theorem scan_disguise (s : State) : scan (disguise d s).cfg s.keyin = scan s.cfg s.keyin := by
  simp only [scan, scanBit, disguise, hd.keyMap]

/-! The key path. -/

theorem keyChange_disguise {ev : EventId} (hev : ev ≠ 3#2) (s : State) :
    keyChange ev (disguise d s) = disguise d (keyChange ev s) := by
  rw [keyChange_eq ev _ hev, keyChange_eq ev s hev, ← setLeds_disguise hd, ← setTone_disguise hd,
    ← scan_disguise hd s]
  rfl

theorem noteLineChange_disguise (v : Lines) (j : Fin 4) (s : State) :
    noteLineChange v j (disguise d s) = disguise d (noteLineChange v j s) := by
  have hbank : (disguise d s).cfg.keyBank[j] = s.cfg.keyBank[j] := by simp only [disguise, hd.keyBank]
  rw [noteLineChange, noteLineChange, hbank, apply_ite (disguise d)]
  rfl

theorem moveKeys_disguise (v : Lines) (s : State) : moveKeys v (disguise d s) = disguise d (moveKeys v s) := by
  simp only [moveKeys, noteLineChange_disguise hd]
  rfl

/-! The sequencer. -/

/-- Acknowledging the tick is the same before and after the disguise is put on. -/
theorem disguise_clear_beatPend (s : State) :
    ({ disguise d s with beatPend := false } : State) = disguise d { s with beatPend := false } :=
  congrArg (fun b => ({ disguise d s with beatPend := b } : State)) hd.beatPend_false.symm

theorem tick_disguise (s : State) : tick (disguise d s) = disguise d (tick s) := by
  obtain ⟨hidle, htick⟩ | ⟨hplay, hrem, htick⟩ | ⟨hplay, hlast, hnote, htick⟩ | ⟨hplay, hlast, hsent, htick⟩ :=
    tick_cases s
  · rw [htick, tick_idle (disguise d s) hidle]
    exact disguise_clear_beatPend hd s
  · rw [htick, tick_countdown (disguise d s) hplay hrem]
    exact disguise_clear_beatPend hd { s with seqRem := s.seqRem - 1#8 }
  · rw [htick, tick_next (disguise d s) hplay hlast hnote, ← setLeds_disguise hd, ← setTone_disguise hd]
    exact congrArg (fun u => setLeds _ (setTone _ u)) (disguise_clear_beatPend hd
      { s with seqIdx := s.seqIdx + 1#4, seqRem := noteDur (memReadNotes s (s.seqIdx + 1#4)) })
  · rw [htick, tick_stop (disguise d s) hplay hlast hsent, ← setLeds_disguise hd, ← setTone_disguise hd]
    exact congrArg (fun u => setLeds _ (setTone _ u)) (disguise_clear_beatPend hd
      { s with seqIdx := s.seqIdx + 1#4, seqRem := 0x00#8, beatRun := false, keyIe := true, playing := false })

/-- `SEQSTART` does the same where the disguise keeps what it reads of the script: whether the first entry is a
sentinel, and the copy. -/
theorem seqStart_disguise {s : State}
    (hsent : isSentinel (memReadScript (d.cfg s.cfg) 0#4) = isSentinel (memReadScript s.cfg 0#4))
    (hcopy : (copyScript (disguise d s)).notes = (copyScript s).notes) :
    seqStart (disguise d s) = disguise d (seqStart s) := by
  obtain ⟨hignored, hkept⟩ | ⟨hidle, hfirst, haccepted⟩ := seqStart_cases s
  · have hignored' : (disguise d s).playing = true ∨ isSentinel (memReadScript (disguise d s).cfg 0#4) = true :=
      hignored.imp_right hsent.trans
    rw [hkept, seqStart_ignored hignored']
  · have hfirst' : isSentinel (memReadScript (disguise d s).cfg 0#4) = false := hsent.trans hfirst
    have hentry : memReadScript (disguise d s).cfg 0#4 = memReadScript s.cfg 0#4 := by
      rw [← copyScript_first _ hfirst', ← copyScript_first _ hfirst, memReadNotes_congr hcopy]
    rw [haccepted, seqStart_accepted (disguise d s) hidle hfirst', startPlayback_eq s hfirst,
      startPlayback_eq _ hfirst', hentry, hcopy, setTone_disguise hd, setLeds_disguise hd]
    simp only [disguise, hd.bcnt_zero]

theorem assertReset_disguise (s : State) : assertReset (disguise d s) = disguise d (assertReset s) := by
  simp only [assertReset, disguise, State.resetWith, hd.tcnt_zero, hd.bcnt_zero, hd.ocLvl_false, hd.beatPend_false]

/-! Every operation. -/

end

/-- The disguise keeps what the operation reads of the fields that it changes, beside the notes and the wiring. -/
def Disguise.Unread (d : Disguise) (s : State) : Instr → Prop
  | .rdReg r => regView (disguise d s) r = regView s r
  | .rdFreq k => freqView (d.cfg s.cfg) k = freqView s.cfg k
  | .seqStart _ => isSentinel (memReadScript (d.cfg s.cfg) 0#4) = isSentinel (memReadScript s.cfg 0#4) ∧
      (copyScript (disguise d s)).notes = (copyScript s).notes
  | _ => True

/-- It is enough that the read views, the Frequency Table's and the script are the same. -/
theorem unread_of_same_views {d : Disguise} {s : State} (hreg : ∀ r, regView (disguise d s) r = regView s r)
    (hfreq : ∀ k, freqView (d.cfg s.cfg) k = freqView s.cfg k) (hscript : (d.cfg s.cfg).script = s.cfg.script)
    (i : Instr) : d.Unread s i := by
  cases i with
  | rdReg r => exact hreg r
  | rdFreq k => exact hfreq k
  | seqStart arg =>
    refine ⟨by simp only [memReadScript, hscript], Vector.ext fun j hj => ?_⟩
    have hlen : scriptLength (disguise d s).cfg = scriptLength s.cfg := congrArg (·.toList.findIdx isSentinel) hscript
    have hentry : (disguise d s).cfg.script[j] = s.cfg.script[j] := congrArg (·[j]) hscript
    rw [copyScript_get _ j hj, copyScript_get s j hj, hlen, hentry]
  | _ => trivial

/-- The handlers read nothing but the notes, the wiring and the sequencer's fields. -/
theorem unread_decodeEvent (d : Disguise) (ev : EventId) (s : State) : d.Unread s (decodeEvent ev) := by
  unfold decodeEvent
  split <;> trivial

section
variable {d : Disguise} (hd : d.Harmless)
include hd

theorem exec_disguise {i : Instr} {s t : State} (hunread : d.Unread s i) (ht : exec i s = .next t) :
    exec i (disguise d s) = .next (disguise d t) := by
  cases i with
  | setTone k =>
    cases ht
    rw [exec_setTone, setTone_disguise hd]; rfl
  | setLeds k =>
    cases ht
    rw [exec_setLeds, setLeds_disguise hd]; rfl
  | scanKeys arg =>
    cases ht
    rw [exec_scanKeys, show (disguise d s).keyin = s.keyin from rfl, scan_disguise hd]; rfl
  | seqStart arg =>
    cases ht
    obtain ⟨hsent, hcopy⟩ := hunread
    rw [exec_seqStart, seqStart_disguise hd hsent hcopy]; rfl
  | rdReg r =>
    cases ht
    rw [exec_rdReg, show regView (disguise d s) r = regView s r from hunread]; rfl
  | rdNote idx => cases ht; rfl
  | rdFreq k =>
    cases ht
    rw [exec_rdFreq, show freqView (disguise d s).cfg k = freqView s.cfg k from hunread]; rfl
  | reservedOp0 arg => cases ht; rfl
  | reservedOp8F op arg => cases ht; rfl
  | keyChg0 =>
    cases ht
    exact congrArg Host.Outcome.next (keyChange_disguise hd (ev := 0#2) (by decide) s)
  | keyChg1 =>
    cases ht
    exact congrArg Host.Outcome.next (keyChange_disguise hd (ev := 1#2) (by decide) s)
  | keyChg2 =>
    cases ht
    exact congrArg Host.Outcome.next (keyChange_disguise hd (ev := 2#2) (by decide) s)
  | tick =>
    cases ht
    rw [exec_tick, tick_disguise hd]

/-- The effect of every agent but the clocks, which count the fields that a disguise changes. -/
theorem performAgent_disguise {a : AgentStep} {s t : State} (hclock : isClockEdge a = false)
    (hunread : ∀ cw, a = .host cw → d.Unread s (decodeCommand cw)) (ht : performAgent a s = .next t) :
    performAgent a (disguise d s) = .next (disguise d t) := by
  cases a with
  | host cw => exact exec_disguise hd (hunread cw rfl) ht
  | arb ev => exact exec_disguise hd (unread_decodeEvent d ev s) ht
  | keys v =>
    cases ht
    rw [performAgent_keys, moveKeys_disguise hd]
  | rst =>
    cases ht
    exact congrArg Host.Outcome.next (assertReset_disguise hd s)
  | tclk => cases hclock
  | bclk => cases hclock

end

end Sys2Proof.Machine

/-!
Noninterference (00_scope.md R19, 20_memory.md R61, R74, 93_implementation_defined.md U4, U11): disguises of the
configuration alone.
-/

namespace Sys2Proof.Machine

/-- A disguise of parameters that are neither notes nor wiring. -/
theorem harmless_cfg {g : Cfg → Cfg} (hfreq : ∀ c (k : Nat) (hk : k < 14), 1 ≤ k → (g c).freq[k] = c.freq[k])
    (hled : ∀ c, (g c).ledMap = c.ledMap) (hkey : ∀ c, (g c).keyMap = c.keyMap)
    (hbank : ∀ c, (g c).keyBank = c.keyBank) : Disguise.Harmless { cfg := g } :=
  ⟨hfreq, hled, hkey, hbank, rfl, rfl, rfl, rfl⟩

/-- Another script in the configuration. -/
def withScript (other : Vector Note 16) : Disguise where
  cfg c := { c with script := other }

theorem withScript_harmless (other : Vector Note 16) : (withScript other).Harmless :=
  harmless_cfg (fun _ _ _ _ => rfl) (fun _ => rfl) (fun _ => rfl) (fun _ => rfl)

/-- Settles O31: `TICK` reads nothing of the configuration but the notes and the wiring. -/
theorem tickDoesNotReadTheScript : Obligations.TickDoesNotReadTheScript :=
  fun s other => ⟨tick s, exec_tick s, exec_disguise (withScript_harmless other) (i := .tick) trivial (exec_tick s)⟩

/-- Scripts of one length begin with a note or with a sentinel alike (R166). -/
theorem isSentinel_first_iff (c : Cfg) : isSentinel (memReadScript c 0#4) = true ↔ scriptLength c = 0 := by
  constructor
  · intro hsent
    by_contra hpos
    rw [not_isSentinel_of_lt c 0#4 (Nat.pos_of_ne_zero hpos)] at hsent
    cases hsent
  · exact fun hempty => isSentinel_at_length c 0#4 hempty.symm

/-- Settles O32: the copy stops at the first sentinel, so scripts that agree up to there are copied alike. -/
theorem entriesAfterTheSentinelDoNotMatter : Obligations.EntriesAfterTheSentinelDoNotMatter := by
  intro arg s other _ hlen hsame
  refine ⟨_, exec_seqStart arg s, exec_disguise (withScript_harmless other) (i := .seqStart arg) ⟨?sent, ?copy⟩
    (exec_seqStart arg s)⟩
  case sent =>
    rw [Bool.eq_iff_iff, isSentinel_first_iff, isSentinel_first_iff]
    exact iff_of_eq (congrArg (· = 0) hlen)
  case copy =>
    ext j hj : 1
    rw [copyScript_get _ j hj, copyScript_get s j hj,
      show scriptLength (disguise (withScript other) s).cfg = scriptLength s.cfg from hlen]
    split
    · rename_i hbelow
      exact hsame ⟨j, hj⟩ hbelow
    · rfl

/-- Another value in entry 0 of the Frequency Table. -/
def withFreqZero (w : Word) : Disguise where
  cfg c := { c with freq := c.freq.set 0 w }

theorem withFreqZero_getElem (w : Word) (c : Cfg) {k : Nat} (hk : k < 14) (hpos : 1 ≤ k) :
    ((withFreqZero w).cfg c).freq[k] = c.freq[k] :=
  Vector.getElem_set_ne (by decide) hk (Nat.ne_of_lt hpos)

theorem withFreqZero_harmless (w : Word) : (withFreqZero w).Harmless :=
  harmless_cfg (fun c _ hk hpos => withFreqZero_getElem w c hk hpos) (fun _ => rfl) (fun _ => rfl) (fun _ => rfl)

/-- `RDFREQ` of an entry other than 0 does not show entry 0. -/
theorem freqView_withFreqZero (w : Word) (c : Cfg) {k : KeyCode} (hk : k ≠ 0#4) :
    freqView ((withFreqZero w).cfg c) k = freqView c k := by
  obtain rfl | ⟨hlow, hhigh⟩ | hinvalid := keyCode_cases k
  · exact absurd rfl hk
  · rw [freqView_eq_entry_of_lt hhigh, freqView_eq_entry_of_lt hhigh, withFreqZero_getElem w c hhigh hlow]
  · rw [freqView_eq_zero_of_gt hinvalid, freqView_eq_zero_of_gt hinvalid]

/-- Settles O52: `SETTONE` reads the entries 1 to 13, and of the read-back commands only `RDFREQ 0` shows entry 0. -/
theorem frequencyEntryZeroIsReadOnlyByRdFreq : Obligations.FrequencyEntryZeroIsReadOnlyByRdFreq := by
  intro i s w hi
  obtain ⟨t, ht⟩ := exec_completes i s
  refine ⟨t, ht, exec_disguise (d := withFreqZero w) (withFreqZero_harmless w) ?_ ht⟩
  cases i with
  | rdFreq k => exact freqView_withFreqZero w s.cfg fun hk => hi (congrArg Instr.rdFreq hk)
  | rdReg r => rfl
  | seqStart arg => exact ⟨rfl, rfl⟩
  | _ => trivial

/-- Other values of the parameters that constrain the configuration but enter no rule (R19). -/
def withConstruction (f b d p : Nat) (hz : Vector Hertz 13) : Disguise where
  cfg c := { c with fClk := f, noteHz := hz, bpm := b, subdiv := d, beatPrescale := p }

theorem withConstruction_harmless (f b d p : Nat) (hz : Vector Hertz 13) : (withConstruction f b d p hz).Harmless :=
  harmless_cfg (fun _ _ _ _ => rfl) (fun _ => rfl) (fun _ => rfl) (fun _ => rfl)

theorem unread_withConstruction (f b d p : Nat) (hz : Vector Hertz 13) (s : State) (i : Instr) :
    (withConstruction f b d p hz).Unread s i :=
  unread_of_same_views (d := withConstruction f b d p hz) (fun _ => rfl) (fun _ => rfl) rfl i

/-! The clocks' edges read the configuration's `BEAT_PERIOD` alone (R128, R175). -/

theorem tclk_disguise_cfg (g : Cfg → Cfg) (s : State) :
    tclk (disguise { cfg := g } s) = disguise { cfg := g } (tclk s) := by
  cases hcs : s.toneCs
  · rw [tclk_of_stopped hcs, tclk_of_stopped (s := disguise { cfg := g } s) hcs]
  · obtain hlt | hle := Nat.lt_or_ge s.tcnt.toNat s.toneCmp.toNat
    · rw [tclk_of_lt_toneCmp hcs hlt, tclk_of_lt_toneCmp (s := disguise { cfg := g } s) hcs hlt]; rfl
    · rw [tclk_of_toneCmp_le hcs hle, tclk_of_toneCmp_le (s := disguise { cfg := g } s) hcs hle]; rfl

theorem bclk_disguise_cfg (g : Cfg → Cfg) {s : State} (hperiod : (g s.cfg).beatPeriod = s.cfg.beatPeriod) :
    bclk (disguise { cfg := g } s) = disguise { cfg := g } (bclk s) := by
  cases hrun : s.beatRun
  · rw [bclk_of_stopped hrun, bclk_of_stopped (s := disguise { cfg := g } s) hrun]
  · have hrun' : (disguise { cfg := g } s).beatRun = true := hrun
    obtain hlt | hle := Nat.lt_or_ge s.bcnt.toNat s.cfg.beatPeriod.toNat
    · rw [bclk_of_lt_beatPeriod hrun hlt, bclk_of_lt_beatPeriod hrun' (hperiod.symm ▸ hlt)]; rfl
    · rw [bclk_of_beatPeriod_le hrun hle, bclk_of_beatPeriod_le hrun' (hperiod.symm ▸ hle)]; rfl

/-- Settles O53: the operations read none of the five, and neither do the clocks' edges. -/
theorem constructionParametersEnterNoRule : Obligations.ConstructionParametersEnterNoRule := by
  intro a rest s t f b d p hz ht
  obtain ⟨henabled, hperform⟩ := (takeAgentStep_next_iff a rest s t).mp ht
  have hperform' : performAgent a (disguise (withConstruction f b d p hz) (beginStep rest s)) =
      .next (disguise (withConstruction f b d p hz) t) := by
    cases hclock : isClockEdge a
    case false =>
      exact performAgent_disguise (withConstruction_harmless f b d p hz) hclock
        (fun cw _ => unread_withConstruction f b d p hz _ (decodeCommand cw)) hperform
    case true =>
      cases a with
      | tclk =>
        cases hperform
        rw [performAgent_tclk, withConstruction, tclk_disguise_cfg]
      | bclk =>
        cases hperform
        rw [performAgent_bclk, withConstruction, bclk_disguise_cfg _ rfl]
      | _ => cases hclock
  exact (takeAgentStep_next_iff a rest _ _).mpr ⟨by cases a <;> exact henabled, hperform'⟩

end Sys2Proof.Machine

/-!
The block without clocks (60_exceptions.md R212): forgetting the clocks is a disguise, and so is emptying the model's
list.
-/

namespace Sys2Proof.Machine

/-- What `forgetClocks` does, as a disguise. -/
def withoutClocks : Disguise where
  tcnt _ := 0x0000#16
  bcnt _ := 0x0000#16
  ocLvl _ := false
  beatPend _ := false
  inputs _ := []
  freeCount _ := 0

theorem disguise_withoutClocks (s : State) : disguise withoutClocks s = forgetClocks s := rfl

theorem withoutClocks_harmless : withoutClocks.Harmless :=
  ⟨fun _ _ _ _ => rfl, fun _ => rfl, fun _ => rfl, fun _ => rfl, rfl, rfl, rfl, rfl⟩

/-- The model's own list and counter emptied. -/
def withoutList : Disguise where
  inputs _ := []
  freeCount _ := 0

theorem withoutList_harmless : withoutList.Harmless :=
  ⟨fun _ _ _ _ => rfl, fun _ => rfl, fun _ => rfl, fun _ => rfl, rfl, rfl, rfl, rfl⟩

/-- No operation reads the model's list or counter. -/
theorem unread_withoutList (s : State) (i : Instr) : withoutList.Unread s i :=
  unread_of_same_views (d := withoutList) (fun _ => rfl) (fun _ => rfl) rfl i

/-- A clock edge changes nothing but what R212 drops. -/
theorem forgetClocks_of_clockEdge {a : AgentStep} {s t : State} (hclock : isClockEdge a = true)
    (ht : performAgent a s = .next t) : forgetClocks t = forgetClocks s := by
  cases a with
  | tclk => cases ht; rw [tclk_frame]; rfl
  | bclk => cases ht; rw [bclk_frame]; rfl
  | _ => cases hclock

/-- An enabled step is enabled in the block without clocks: a tick is requested only while the beat timer runs. -/
theorem clockFreeEnabled_of_stepEnabled {a : AgentStep} {s : State} (h : Invariant s)
    (henabled : stepEnabled a s = true) (hclock : isClockEdge a = false) :
    clockFreeEnabled a (forgetClocks s) = true := by
  cases a with
  | arb ev =>
    obtain rfl | hev := eq_or_ne ev 3#2
    · exact h.beatRun_eq.trans (h.playing_of_beatPend henabled)
    · rw [clockFreeEnabled, if_neg hev, deliverable_key ev _ hev]
      rwa [stepEnabled_arb, deliverable_key ev s hev] at henabled
  | tclk => cases hclock
  | bclk => cases hclock
  | _ => exact henabled

theorem clockFreeStep_of_takeAgentStep {a : AgentStep} {rest : List AgentStep} {s t : State} (h : Invariant s)
    (ht : takeAgentStep a rest s = .next t) (hclock : isClockEdge a = false) :
    clockFreeStep (droppedOf s) a (forgetClocks s) = .next (forgetClocks t) := by
  obtain ⟨henabled, hperform⟩ := (takeAgentStep_next_iff a rest s t).mp ht
  have hlist := performAgent_disguise withoutList_harmless hclock
    (fun cw _ => unread_withoutList _ (decodeCommand cw)) hperform
  exact clockFreeStep_next (t := disguise withoutList t) (clockFreeEnabled_of_stepEnabled h henabled hclock) hlist

/-- Settles O54: an edge changes only what is dropped and is no step there; any other step does the same there, where
the values that it may read are those of the clocked block. -/
theorem clockedStepsMapToTheClockFreeBlock : Obligations.ClockedStepsMapToTheClockFreeBlock := by
  intro a rest s t h ht
  refine ⟨fun hclock => ⟨?_, fun d u => clockFreeStep_clockEdge hclock d u⟩, clockFreeStep_of_takeAgentStep h ht⟩
  rw [forgetClocks_of_clockEdge hclock ((takeAgentStep_next_iff a rest s t).mp ht).2]
  rfl

/-! Runs. -/

/-- A step of the block without clocks does not depend on what was driven on `RDATA` before. -/
theorem clockFreeStep_rdata (d : Dropped) (a : AgentStep) {s u : State}
    (h : ({ u with rdata := none } : State) = { s with rdata := none }) :
    clockFreeStep d a u = clockFreeStep d a s := by
  have henabled : ∀ s : State, clockFreeEnabled a s = clockFreeEnabled a { s with rdata := none } := by
    cases a <;> exact fun _ => rfl
  have heffect : ∀ s : State, ({ withDropped d s with rdata := none } : State) =
    { withDropped d { s with rdata := none } with rdata := none } := fun _ => rfl
  rw [clockFreeStep, clockFreeStep, henabled u, henabled s, heffect u, heffect s, h]

/-- A run of the clocked block, from any state that shows as its start without clocks but for `RDATA`. -/
theorem clockFreeRun_of_runTrace (as : List AgentStep) {s t : State} (h : Invariant s) (hrun : runTrace as s = .next t)
    {u : State} (hu : ({ u with rdata := none } : State) = { forgetClocks s with rdata := none }) :
    ∃ (ds : List (Dropped × AgentStep)) (v : State),
      ds.map Prod.snd = as.filter (fun a => !isClockEdge a) ∧ clockFreeRun ds u = .next v ∧
      ({ v with rdata := none } : State) = { forgetClocks t with rdata := none } := by
  induction as generalizing s u with
  | nil =>
    cases hrun
    exact ⟨[], u, rfl, rfl, hu⟩
  | cons a rest ih =>
    obtain ⟨s', hs', hrun⟩ := runTrace_cons_next hrun
    have h' := h.takeAgentStep hs'
    cases hclock : isClockEdge a
    case false =>
      have hstep : clockFreeStep (droppedOf s) a u = .next (forgetClocks s') :=
        (clockFreeStep_rdata _ a hu).trans (clockFreeStep_of_takeAgentStep h hs' hclock)
      obtain ⟨ds, v, hlabels, hds, hv⟩ := ih h' hrun rfl
      refine ⟨(droppedOf s, a) :: ds, v, ?_, (clockFreeRun_cons hstep).trans hds, hv⟩
      rw [List.map_cons, hlabels, List.filter_cons_of_pos (by rw [hclock]; rfl)]
    case true =>
      have hsame : forgetClocks s' = forgetClocks (beginStep rest s) :=
        forgetClocks_of_clockEdge hclock ((takeAgentStep_next_iff a rest s s').mp hs').2
      obtain ⟨ds, v, hlabels, hds, hv⟩ := ih h' hrun (u := u) (by rw [hu, hsame]; rfl)
      refine ⟨ds, v, ?_, hds, hv⟩
      rw [hlabels, List.filter_cons_of_neg (by rw [hclock]; exact Bool.false_ne_true)]

/-- Settles O56: by induction over the run, an edge being left out and any other step being one of the block without
clocks. -/
theorem clockedRunsMapToClockFreeRuns : Obligations.ClockedRunsMapToClockFreeRuns :=
  fun as _ _ h hrun => clockFreeRun_of_runTrace as h hrun rfl

/-! The dropped fields. -/

/-- Only the registers 1, 2, 5 and 7 show a field that R212 drops (10_state.md R41, R42, R45, R47). -/
theorem regView_forgetClocks {r : Arg} (hr : r ∉ [1#4, 2#4, 5#4, 7#4]) (s : State) :
    regView (forgetClocks s) r = regView s r := by
  have hcases : r = 0#4 ∨ r = 3#4 ∨ r = 4#4 ∨ r = 6#4 ∨ r = 8#4 ∨ 9 ≤ r.toNat := by
    revert hr; revert r; decide
  obtain rfl | rfl | rfl | rfl | rfl | hreserved := hcases
  · rfl
  · rfl
  · rfl
  · rfl
  · rfl
  · rw [regView_eq_zero_of_reserved hreserved, regView_eq_zero_of_reserved hreserved]

/-- A command other than `RDREG` of one of those registers reads no field that R212 drops. -/
theorem unread_withoutClocks {a : AgentStep} (hreads : ∀ r ∈ [1#4, 2#4, 5#4, 7#4], a ≠ .host (0x5#4 ++ r)) (s : State) :
    ∀ cw, a = .host cw → withoutClocks.Unread s (decodeCommand cw) := by
  rintro cw rfl
  cases hdecode : decodeCommand cw with
  | rdReg r =>
    have hword : Code.command cw = .command (0x5#4 ++ r) := by rw [← encode_decodeCommand cw, hdecode]; rfl
    cases hword
    exact regView_forgetClocks (fun hr => hreads r hr rfl) s
  | rdFreq k => rfl
  | seqStart arg => exact ⟨rfl, rfl⟩
  | _ => trivial

/-- Settles O57: with the clocks forgotten, the two states are one, so the steps from them answer one state. -/
theorem clockFreeStepsReadNoDroppedField : Obligations.ClockFreeStepsReadNoDroppedField := by
  intro d a s t henabled hreads ht
  have hclock : isClockEdge a = false := by
    cases a with
    | tclk => cases henabled
    | bclk => cases henabled
    | _ => rfl
  obtain ⟨u, hu⟩ := performAgent_completes a { withDropped d s with rdata := none }
  have hforget := performAgent_disguise withoutClocks_harmless hclock (unread_withoutClocks hreads _) ht
  have hforget' := performAgent_disguise withoutClocks_harmless hclock (unread_withoutClocks hreads _) hu
  have hsame : (Host.Outcome.next (forgetClocks u) : Host.Outcome State Fault Refusal) = .next (forgetClocks t) := by
    rw [← disguise_withoutClocks, ← disguise_withoutClocks]
    exact hforget'.symm.trans hforget
  rw [clockFreeStep_next henabled hu, hsame]

end Sys2Proof.Machine

/-!
The outputs of the commands (40_tone.md R125 to R130, 41_led.md R140, R142): the speaker, the default LED wiring,
and runs of the two timers' clock edges (43_sequencer.md R175).
-/

namespace Sys2Proof.Machine

/-! The speaker (R126, 10_state.md R27). -/

/-- Settles O14: the two branches of R27. -/
theorem speakerPadFollowsTheToggle : Obligations.SpeakerPadFollowsTheToggle :=
  fun _ => ⟨fun hcom => if_pos hcom, fun hcom => if_neg (Bool.eq_false_iff.mp hcom)⟩

/-- Settles O13: a note sets the three flags and silence clears them, so the pad follows `OC_LVL` and `SPK_ACT` = 0. -/
theorem speakerIsEnabledByNotesAndDisabledBySilence : Obligations.SpeakerIsEnabledByNotesAndDisabledBySilence := by
  refine ⟨?note, ?silence⟩
  case note =>
    intro k s h hlow
    refine ⟨_, exec_setTone k s, ?_⟩
    rw [setTone_note k s hlow h]
    exact ⟨rfl, rfl, rfl⟩
  case silence =>
    intro s
    refine ⟨_, exec_setTone 0#4 s, ?_⟩
    rw [setTone_silence]
    exact ⟨rfl, rfl⟩

/-! Idempotence (R125 (a), (b), R140 (b)). -/

/-- Driving `RDATA` again with the same value changes nothing, and no output operation reads it. -/
theorem setTone_driveRdata (k : KeyCode) (v : Word) (s : State) :
    setTone k (driveRdata v s) = driveRdata v (setTone k s) :=
  setTone_comm k s (driveRdata v) (fun _ => rfl) (fun _ _ _ _ _ => rfl) rfl

/-- Settles O19: both operations are idempotent, and the second command drives the same 0x0000. -/
theorem outputCommandsAreIdempotent : Obligations.OutputCommandsAreIdempotent := by
  intro k s i hi
  simp only [List.mem_cons, List.not_mem_nil, or_false] at hi
  obtain rfl | rfl := hi
  · refine ⟨_, exec_setTone k s, ?_⟩
    rw [exec_setTone, setTone_driveRdata, setTone_idem]
    rfl
  · refine ⟨_, exec_setLeds k s, ?_⟩
    have hleds : setLeds k (driveRdata 0x0000#16 (setLeds k s)) = driveRdata 0x0000#16 (setLeds k (setLeds k s)) := rfl
    rw [exec_setLeds, hleds, setLeds_setLeds]
    rfl

/-! The default `LED_MAP` (R142). -/

/-- Under the default wiring LED position `i` is bit `i` of the port, and no LED is at a bit above 3. -/
theorem ledMap_default (c : Cfg) (hmap : c.ledMap = #v[0, 1, 2, 3]) (i : Fin 4) : (c.ledMap[i]).val = i.val := by
  have hdefault : ∀ i : Fin 4, ((#v[0, 1, 2, 3] : Vector (Fin 8) 4)[i]).val = i.val := by decide
  simpa only [hmap] using hdefault i

theorem setLeds_ledport_default (k : KeyCode) {s : State} (hmap : s.cfg.ledMap = #v[0, 1, 2, 3]) :
    (setLeds k s).ledport = s.ledport.extractLsb' 4 4 ++ k := by
  have hval := ledMap_default s.cfg hmap
  have hinj : LedMapOk s.cfg := fun i j hij => Fin.ext ((hval i).symm.trans ((congrArg Fin.val hij).trans (hval j)))
  apply BitVec.eq_of_getLsbD_eq
  intro j hj
  rw [BitVec.getLsbD_append]
  by_cases hlow : j < 4
  · have hbit := setLeds_routed k s hinj ⟨j, hlow⟩
    rw [hval] at hbit
    rw [hbit, if_pos hlow]
  · have hunrouted : ∀ i : Fin 4, s.cfg.ledMap[i] ≠ ⟨j, hj⟩ := fun i hi => by
      have hbit : j = i.val := (congrArg Fin.val hi).symm.trans (hval i)
      omega
    rw [setLeds_unrouted k s ⟨j, hj⟩ hunrouted, if_neg hlow, BitVec.getLsbD_extractLsb',
      decide_eq_true (show j - 4 < 4 by omega), Bool.true_and, Nat.add_sub_cancel' (Nat.not_lt.mp hlow)]

/-- Settles O18: the port is the code under the high half it had, and `SETLEDS` writes the port and `RDATA` alone. -/
theorem setLedsUnderTheDefaultMap : Obligations.SetLedsUnderTheDefaultMap := by
  intro k s hmap
  rw [exec_setLeds, setLeds_eq, setLeds_ledport_default k hmap, driveRdata]

/-! Runs of clock edges. -/

theorem runTrace_cons {a : AgentStep} {rest : List AgentStep} {s t : State} (h : takeAgentStep a rest s = .next t) :
    runTrace (a :: rest) s = runTrace rest t := by
  rw [runTrace, h]

/-- A count that each edge below `limit` takes up by one is taken up by a run of edges, whatever is listed after it. -/
theorem runTrace_counts {a : AgentStep} {limit : Nat} (P : Nat → State → Prop)
    (edge : ∀ count rest s, P count s → count < limit → ∃ t, takeAgentStep a rest s = .next t ∧ P (count + 1) t)
    (more : List AgentStep) (n : Nat) {count : Nat} {s : State} (h : P count s) (hn : count + n ≤ limit) :
    ∃ t, runTrace (List.replicate n a ++ more) s = runTrace more t ∧ P (count + n) t := by
  induction n generalizing count s with
  | zero => exact ⟨s, rfl, h⟩
  | succ n ih =>
    obtain ⟨s', hs', h'⟩ := edge count (List.replicate n a ++ more) s h (by omega)
    obtain ⟨t, hrun, ht⟩ := ih h' (by omega)
    exact ⟨t, (runTrace_cons hs').trans hrun, by rwa [Nat.add_right_comm] at ht⟩

/-- A note with the compare count `cmp` sounds, the pad is at `level`, and the counter is at `count`. -/
structure Sounds (cmp : Word) (level : Bool) (count : Nat) (s : State) : Prop where
  toneCs : s.toneCs = true
  toneCom : s.toneCom = true
  toneCmp : s.toneCmp = cmp
  ocLvl : s.ocLvl = level
  tcnt : s.tcnt.toNat = count

theorem Sounds.edge_below {cmp : Word} {level : Bool} (count : Nat) (rest : List AgentStep) (s : State)
    (h : Sounds cmp level count s) (hlt : count < cmp.toNat) :
    ∃ t, takeAgentStep .tclk rest s = .next t ∧ Sounds cmp level (count + 1) t := by
  refine ⟨tclk (beginStep rest s), rfl, ?_⟩
  have htcnt := h.tcnt
  have hcount : (beginStep rest s).tcnt.toNat < (beginStep rest s).toneCmp.toNat := by
    rwa [beginStep_tcnt, beginStep_toneCmp, htcnt, h.toneCmp]
  rw [tclk_of_lt_toneCmp (s := beginStep rest s) h.toneCs hcount]
  exact { h with tcnt := show (s.tcnt + 1#16).toNat = count + 1 by bv_omega }

theorem Sounds.edge_match {cmp : Word} {level : Bool} {count : Nat} {s : State} (h : Sounds cmp level count s)
    (rest : List AgentStep) (hle : cmp.toNat ≤ count) :
    ∃ t, takeAgentStep .tclk rest s = .next t ∧ Sounds cmp (!level) 0 t := by
  refine ⟨tclk (beginStep rest s), rfl, ?_⟩
  have hcount : (beginStep rest s).toneCmp.toNat ≤ (beginStep rest s).tcnt.toNat := by
    rwa [beginStep_tcnt, beginStep_toneCmp, h.tcnt, h.toneCmp]
  rw [tclk_of_toneCmp_le (s := beginStep rest s) h.toneCs hcount]
  exact { h with
    ocLvl := (if_pos h.toneCom).trans (congrArg not h.ocLvl)
    tcnt := rfl }

/-- Settles O16: the edges up to the compare count only count, and the next one is a match; a counter above the compare
count is matched at once. -/
theorem toneTogglesAfterTheRestOfTheCount : Obligations.ToneTogglesAfterTheRestOfTheCount := by
  intro s hcs hcom
  have hsounds : Sounds s.toneCmp s.ocLvl s.tcnt.toNat s := ⟨hcs, hcom, rfl, rfl, rfl⟩
  refine ⟨?below, ?toggle⟩
  case below =>
    intro n hn
    obtain ⟨t, hrun, ht⟩ := runTrace_counts _ Sounds.edge_below [] n hsounds hn
    rw [List.append_nil] at hrun
    exact ⟨t, hrun, ht.tcnt, ht.ocLvl, ht.toneCmp⟩
  case toggle =>
    obtain ⟨count, s', hrun, hs', hle⟩ : ∃ count s', runTrace
        (List.replicate (s.toneCmp.toNat - s.tcnt.toNat) .tclk ++ [.tclk]) s = runTrace [.tclk] s' ∧
        Sounds s.toneCmp s.ocLvl count s' ∧ s.toneCmp.toNat ≤ count := by
      obtain hbelow | habove := Nat.le_total s.tcnt.toNat s.toneCmp.toNat
      · obtain ⟨s', hrun, hs'⟩ := runTrace_counts _ Sounds.edge_below [.tclk] (s.toneCmp.toNat - s.tcnt.toNat) hsounds
          (by omega)
        exact ⟨_, s', hrun, hs', by omega⟩
      · rw [Nat.sub_eq_zero_of_le habove]
        exact ⟨_, s, rfl, hsounds, habove⟩
    obtain ⟨t, hedge, ht⟩ := hs'.edge_match [] hle
    rw [List.replicate_succ', hrun, runTrace_cons hedge]
    exact ⟨t, rfl, BitVec.eq_of_toNat_eq ht.tcnt, ht.ocLvl, ht.toneCmp, ht.toneCs, ht.toneCom⟩

/-- The beat timer runs with the period `period`, no tick is requested, and the counter is at `count`. -/
structure BeatCounts (period : Word) (count : Nat) (s : State) : Prop where
  beatRun : s.beatRun = true
  beatPend : s.beatPend = false
  beatPeriod : s.cfg.beatPeriod = period
  bcnt : s.bcnt.toNat = count

theorem BeatCounts.edge_below {period : Word} (count : Nat) (rest : List AgentStep) (s : State)
    (h : BeatCounts period count s) (hlt : count < period.toNat) :
    ∃ t, takeAgentStep .bclk rest s = .next t ∧ BeatCounts period (count + 1) t := by
  refine ⟨bclk (beginStep rest s), takeAgentStep_of_enabled ((stepEnabled_bclk_iff s).mpr h.beatPend) rest, ?_⟩
  have hbcnt := h.bcnt
  have hcount : (beginStep rest s).bcnt.toNat < (beginStep rest s).cfg.beatPeriod.toNat := by
    rwa [beginStep_bcnt, beginStep_cfg, hbcnt, h.beatPeriod]
  rw [bclk_of_lt_beatPeriod (s := beginStep rest s) h.beatRun hcount]
  exact { h with bcnt := show (s.bcnt + 1#16).toNat = count + 1 by bv_omega }

/-- Settles O34: the edges up to the period only count, and the next one requests the tick. -/
theorem beatRequestComesAfterThePeriod : Obligations.BeatRequestComesAfterThePeriod := by
  intro s hrun hpend hzero
  have hcounts : BeatCounts s.cfg.beatPeriod 0 s := ⟨hrun, hpend, rfl, congrArg BitVec.toNat hzero⟩
  refine ⟨?below, ?request⟩
  case below =>
    intro n hn
    obtain ⟨t, hrun, ht⟩ := runTrace_counts _ BeatCounts.edge_below [] n hcounts (by omega)
    rw [List.append_nil] at hrun
    rw [Nat.zero_add] at ht
    exact ⟨t, hrun, ht.bcnt, ht.beatPend⟩
  case request =>
    obtain ⟨s', hrun, hs'⟩ :=
      runTrace_counts _ BeatCounts.edge_below [.bclk] s.cfg.beatPeriod.toNat hcounts (by omega)
    have hedge : takeAgentStep .bclk [] s' = .next (bclk (beginStep [] s')) :=
      takeAgentStep_of_enabled ((stepEnabled_bclk_iff s').mpr hs'.beatPend) []
    have hperiod : (beginStep [] s').cfg.beatPeriod.toNat ≤ (beginStep [] s').bcnt.toNat := by
      rw [beginStep_bcnt, beginStep_cfg, hs'.bcnt, hs'.beatPeriod]; omega
    refine ⟨bclk (beginStep [] s'), ?_, ?_⟩
    · rw [List.replicate_succ', hrun, runTrace_cons hedge]; rfl
    · rw [bclk_of_beatPeriod_le (s := beginStep [] s') hs'.beatRun hperiod]; exact ⟨rfl, rfl⟩

end Sys2Proof.Machine

/-!
The key path as a whole (42_keys.md R155, 60_exceptions.md R208), `RDATA` (30_encoding.md R94) and the views after reset
(10_state.md R52).
-/

namespace Sys2Proof.Machine

/-! Key moves and deliveries in any order (R155). -/

/-- A delivery puts the outputs to the code of the lines (R154). -/
theorem keyChange_showsCode {ev : EventId} (hev : ev ≠ 3#2) (s : State) :
    ShowsCode (scan (keyChange ev s).cfg (keyChange ev s).keyin) (keyChange ev s) := by
  have hcode : scan (keyChange ev s).cfg (keyChange ev s).keyin = scan s.cfg s.keyin := by
    rw [keyChange_frame hev]; rfl
  rw [hcode, keyChange_eq ev s hev]
  exact showsCode_set _ _

/-- A line that moves leaves its bank's flag set (R153). -/
theorem moveKeys_keyPend_ne_zero {v : Lines} {s : State} (hv : v ≠ s.keyin) : (moveKeys v s).keyPend ≠ 0#3 := by
  intro hzero
  apply hv
  apply BitVec.eq_of_getLsbD_eq
  intro j hj
  have hflag := moveKeys_keyPend v s (s.cfg.keyBank[(⟨j, hj⟩ : Fin 4)])
  rw [hzero, BitVec.getLsbD_zero] at hflag
  by_contra hmoved
  have hset : ∃ l : Fin 4, s.cfg.keyBank[l] = s.cfg.keyBank[(⟨j, hj⟩ : Fin 4)] ∧
      v.getLsbD l.val ≠ s.keyin.getLsbD l.val := ⟨⟨j, hj⟩, rfl, hmoved⟩
  rw [decide_eq_true hset, Bool.or_true] at hflag
  cases hflag

/-- A `KEYS` step or the delivery of a key request. -/
def isKeyStep (a : AgentStep) : Prop := (∃ v, a = .keys v) ∨ ∃ ev : EventId, ev ≠ 0b11#2 ∧ a = .arb ev

/-- After either of the two a key request is pending or the outputs show the lines. -/
theorem takeAgentStep_keyStep {a : AgentStep} {rest : List AgentStep} {s t : State} (ha : isKeyStep a)
    (ht : takeAgentStep a rest s = .next t) : t.keyPend ≠ 0#3 ∨ ShowsCode (scan t.cfg t.keyin) t := by
  obtain ⟨henabled, hperform⟩ := (takeAgentStep_next_iff a rest s t).mp ht
  obtain ⟨v, rfl⟩ | ⟨ev, hev, rfl⟩ := ha
  · cases hperform
    exact .inl (moveKeys_keyPend_ne_zero (s := beginStep rest s) (bne_iff_ne.mp henabled))
  · cases (decodeEvent_key ev hev _).symm.trans hperform
    exact .inr (keyChange_showsCode hev _)

/-- So it is at the end of a run of such steps, where it is at the start or the run takes a step. -/
theorem runTrace_keySteps {as : List AgentStep} (has : ∀ a ∈ as, isKeyStep a) {s t : State}
    (hs : as = [] → s.keyPend ≠ 0#3 ∨ ShowsCode (scan s.cfg s.keyin) s) (hrun : runTrace as s = .next t) :
    t.keyPend ≠ 0#3 ∨ ShowsCode (scan t.cfg t.keyin) t := by
  induction as generalizing s with
  | nil => cases hrun; exact hs rfl
  | cons a rest ih =>
    obtain ⟨s', hs', hrun⟩ := runTrace_cons_next hrun
    exact ih (fun b hb => has b (List.mem_cons_of_mem a hb))
      (fun _ => takeAgentStep_keyStep (has a List.mem_cons_self) hs') hrun

/-- Settles O24: nothing is pending at the end, so the outputs show the lines, under every code. -/
theorem outputsSettleToTheFinalCode : Obligations.OutputsSettleToTheFinalCode := by
  rintro as s t has ⟨v, hv⟩ hrun hnone
  obtain hpend | hshows := runTrace_keySteps has (fun hnil => absurd (hnil ▸ hv) List.not_mem_nil) hrun
  · exact absurd hnone hpend
  · exact ⟨hshows.leds, fun _ => hshows.tone⟩

/-! Two deliveries (R208). -/

theorem takeAgentStep_keyDelivery {ev : EventId} {s : State} (hev : ev ≠ 3#2) (hd : deliverable ev s = true)
    (rest : List AgentStep) : takeAgentStep (.arb ev) rest s = .next (keyChange ev (beginStep rest s)) :=
  (takeAgentStep_of_enabled (a := .arb ev) hd rest).trans (decodeEvent_key ev hev _)

theorem keyChange_keyPend {ev : EventId} (hev : ev ≠ 3#2) (s : State) :
    (keyChange ev s).keyPend = s.keyPend &&& ~~~ BitVec.twoPow 3 ev.toNat := by
  rw [keyChange_eq ev s hev, setLeds_keyPend, setTone_keyPend]

/-- A delivery keeps the other banks' requests deliverable: it clears its own flag alone, and no mask (R205). -/
theorem deliverable_keyChange {b c : EventId} {s : State} (hb : b ≠ 3#2) (hc : c ≠ 3#2) (hbc : b ≠ c)
    (hd : deliverable c s = true) : deliverable c (keyChange b s) = true := by
  obtain ⟨hflag, hie⟩ := (deliverable_key_iff hc s).mp hd
  have hlt := (eventId_toNat_lt_three_iff c).mpr hc
  have hne : b.toNat ≠ c.toNat := fun h => hbc (BitVec.eq_of_toNat_eq h)
  have hkept : (keyChange b s).keyIe = s.keyIe := by rw [keyChange_frame hb]; rfl
  rw [deliverable_key_iff hc, keyChange_keyPend hb, hkept, BitVec.getLsbD_and, BitVec.getLsbD_not,
    BitVec.getLsbD_twoPow, hflag]
  simp [hne, hlt, hie]

/-- The second handler of two clears its flag too, and sets the outputs to the code that they are set to. -/
theorem keyChange_after_keyChange {b c : EventId} (hb : b ≠ 3#2) (hc : c ≠ 3#2) (s : State) :
    keyChange c (beginStep [] (keyChange b s)) =
      setLeds (scan s.cfg s.keyin) (setTone (scan s.cfg s.keyin) { beginStep [] s with
        keyPend := s.keyPend &&& ~~~ BitVec.twoPow 3 b.toNat &&& ~~~ BitVec.twoPow 3 c.toNat }) := by
  have hcode : scan (beginStep [] (keyChange b s)).cfg (beginStep [] (keyChange b s)).keyin = scan s.cfg s.keyin := by
    rw [keyChange_frame hb]; rfl
  have hcomm := setTone_comm (scan s.cfg s.keyin)
    { s with keyPend := s.keyPend &&& ~~~ BitVec.twoPow 3 b.toNat }
    (fun t => { beginStep [] t with
      keyPend := s.keyPend &&& ~~~ BitVec.twoPow 3 b.toNat &&& ~~~ BitVec.twoPow 3 c.toNat })
    (fun _ => rfl) (fun _ _ _ _ _ => rfl) rfl
  rw [keyChange_eq c _ hc, hcode, beginStep_keyPend, keyChange_keyPend hb, keyChange_eq b s hb]
  generalize scan s.cfg s.keyin = code at hcomm ⊢
  have hshows := showsCode_set code { beginStep [] s with
    keyPend := s.keyPend &&& ~~~ BitVec.twoPow 3 b.toNat &&& ~~~ BitVec.twoPow 3 c.toNat }
  exact (congrArg (fun t => setLeds code (setTone code (setLeds code t))) hcomm.symm).trans
    ((congrArg (setLeds code) hshows.tone).trans hshows.leds)

/-- Two deliveries one after the other: both flags are cleared, and the outputs are set to the one code of the lines. -/
theorem runTrace_two_deliveries {b c : EventId} {s : State} (hb : b ≠ 3#2) (hc : c ≠ 3#2) (hbc : b ≠ c)
    (hdb : deliverable b s = true) (hdc : deliverable c s = true) :
    runTrace [.arb b, .arb c] s =
      .next (setLeds (scan s.cfg s.keyin) (setTone (scan s.cfg s.keyin)
        { beginStep [] (beginStep [] s) with
          keyPend := s.keyPend &&& ~~~ BitVec.twoPow 3 b.toNat &&& ~~~ BitVec.twoPow 3 c.toNat })) := by
  have hfirst := takeAgentStep_keyDelivery hb hdb [.arb c]
  have hsecond := takeAgentStep_keyDelivery hc
    (deliverable_keyChange (s := beginStep [.arb c] s) hb hc hbc hdc) []
  rw [runTrace_cons hfirst, runTrace_cons hsecond, runTrace, keyChange_after_keyChange hb hc]
  rfl

/-- Settles O25: the flags that the two clear do not depend on their order. -/
theorem keyDeliveriesCommute : Obligations.KeyDeliveriesCommute := by
  intro s b c hb hc hbc hdb hdc
  refine ⟨_, runTrace_two_deliveries hb hc hbc hdb hdc, ?_⟩
  rw [runTrace_two_deliveries hc hb hbc.symm hdc hdb, BitVec.and_assoc, BitVec.and_comm (~~~ _), ← BitVec.and_assoc]

/-! `RDATA` (R94). -/

/-- What a command drives: 0x0000 unless it is one of the four reads. -/
theorem exec_decodeCommand_rdata {cw : CommandWord} {s t : State} (ht : exec (decodeCommand cw) s = .next t) :
    ∃ v, t.rdata = some v ∧
      ((decodeCommand cw).row ∉ [OpcodeRow.scanKeys, .rdReg, .rdNote, .rdFreq] → v = 0x0000#16) := by
  unfold decodeCommand at ht ⊢
  split at ht
  case h_4 | h_6 | h_7 | h_8 =>
    cases ht
    exact ⟨_, rfl, fun h => absurd (by simp [Instr.row]) h⟩
  all_goals
    cases ht
    exact ⟨_, rfl, fun _ => rfl⟩

/-- No step of another agent drives the port. -/
theorem performAgent_rdata {a : AgentStep} {s t : State} (hhost : ∀ cw, a ≠ .host cw) (hs : s.rdata = none)
    (ht : performAgent a s = .next t) : t.rdata = none := by
  obtain ⟨cw, _, ha, _⟩ | ⟨cw, _, ha, _⟩ | ⟨cw, _, ha, _⟩ | ⟨cw, _, ha, _⟩ | ⟨_, _, hev, rfl⟩ | ⟨_, rfl⟩ |
    ⟨_, _, rfl⟩ | ⟨_, rfl⟩ | ⟨_, rfl⟩ | ⟨_, rfl⟩ := performAgent_cases ht
  · exact absurd ha (hhost cw)
  · exact absurd ha (hhost cw)
  · exact absurd ha (hhost cw)
  · exact absurd ha (hhost cw)
  · rw [keyChange_frame hev]; exact hs
  · rw [tick_frame]; exact hs
  · rw [moveKeys_eq]; exact hs
  · rw [tclk_frame]; exact hs
  · rw [bclk_frame]; exact hs
  · rfl

/-- Settles O41: a command drives the port in its own step; every step begins with it undriven, whatever it was. -/
theorem onlyCommandsDriveReadData : Obligations.OnlyCommandsDriveReadData := by
  intro a rest s t ht
  obtain ⟨henabled, hperform⟩ := (takeAgentStep_next_iff a rest s t).mp ht
  refine ⟨?driven, ?undriven, ?unread⟩
  case driven =>
    rintro cw rfl
    exact exec_decodeCommand_rdata hperform
  case undriven =>
    intro hhost
    have hnone : t.rdata = none := performAgent_rdata hhost (beginStep_rdata rest s) hperform
    exact ⟨hnone, by rw [rdataPort, hnone]; rfl⟩
  case unread =>
    intro v
    exact (takeAgentStep_next_iff a rest _ t).mpr ⟨by cases a <;> exact henabled, hperform⟩

/-! The views after reset (R52). -/

/-- With the tone off and `OC_LVL` low the pad and all bits of the view are 0 (R41). -/
theorem toneCtrlView_resetWith (c : Cfg) (v : Lines) : toneCtrlView (State.resetWith c v) = 0x0000#16 := by
  change viewBit false 0 ||| viewBit false 1 ||| viewBit false 2 ||| viewBit false 3 ||| viewBit false 4 = 0x0000#16
  decide

/-- `KEY_IE` is the one field that reset sets (R45, R52). -/
theorem intView_resetWith (c : Cfg) (v : Lines) : intView (State.resetWith c v) = 0x0001#16 := by
  change viewBit true 0 ||| viewField 0b000#3 1 ||| viewBit false 4 = 0x0001#16
  decide

theorem seqView_resetWith (c : Cfg) (v : Lines) : seqView (State.resetWith c v) = 0x0000#16 := by
  change viewBit false 0 ||| viewBit false 1 ||| viewField 0#4 4 ||| viewField 0x00#8 8 = 0x0000#16
  decide

/-- Settles O43: the pads and the views of zeros, and the one bit of `KEY_IE`; no flag is set. -/
theorem resetStateIsSilentDarkAndIdle : Obligations.ResetStateIsSilentDarkAndIdle := by
  intro c v
  refine ⟨rfl, fun j => BitVec.getLsbD_zero, ?views, intView_resetWith c v, ?deliverable, memReadNotes_resetWith c v⟩
  case views =>
    intro r hr
    simp only [List.mem_cons, List.not_mem_nil, or_false] at hr
    obtain rfl | rfl | rfl | rfl | rfl | rfl := hr
    · rfl
    · exact toneCtrlView_resetWith c v
    · rfl
    · rfl
    · exact seqView_resetWith c v
    · rfl
  case deliverable =>
    intro ev
    obtain rfl | hev := eq_or_ne ev 3#2
    · rfl
    · rw [deliverable_key ev _ hev, show (State.resetWith c v).keyPend = 0#3 from rfl, BitVec.getLsbD_zero,
        Bool.false_and]

end Sys2Proof.Machine

/-!
The length of a playback (43_sequencer.md R171): the note that sounds and the ticks it has left, tick by tick.
-/

namespace Sys2Proof.Machine

/-! Ticks handled one after the other. -/

theorem afterTicks_succ (n : Nat) (s : State) : afterTicks (n + 1) s = tick (afterTicks n s) :=
  Function.iterate_succ_apply' tick n s

theorem afterTicks_add (m n : Nat) (s : State) : afterTicks (m + n) s = afterTicks n (afterTicks m s) := by
  rw [Nat.add_comm]
  exact Function.iterate_add_apply tick n m s

/-! The durations of a script's notes (R171). -/

/-- Note `i` sounds for its own duration. -/
theorem ticksBefore_succ (c : Cfg) (i : NoteIndex) :
    ticksBefore c (i.toNat + 1) = ticksBefore c i.toNat + (noteDur (memReadScript c i)).toNat := by
  have hlen : i.toNat < c.script.toList.length := by simpa using i.isLt
  rw [ticksBefore, ticksBefore, List.take_add_one, List.getElem?_eq_getElem hlen, Option.toList_some, List.map_append,
    List.sum_append, List.map_singleton, List.sum_singleton]
  rfl

/-- A duration has 8 bits. -/
theorem ticksBefore_le (c : Cfg) (n : Nat) : ticksBefore c n ≤ n * 255 := by
  have hdur : ∀ d ∈ (c.script.toList.take n).map fun w => (noteDur w).toNat, d ≤ 255 := by
    intro d hd
    obtain ⟨w, _, rfl⟩ := List.mem_map.mp hd
    exact Nat.le_of_lt_succ (noteDur w).isLt
  refine (List.sum_le_card_nsmul _ 255 hdur).trans ?_
  rw [smul_eq_mul, List.length_map]
  exact Nat.mul_le_mul_right 255 (List.length_take_le n _)

/-! A playback. -/

/-- The playback of the script of `c` sounds note `i`, with `left` ticks left of it. -/
structure PlaysNote (c : Cfg) (i : NoteIndex) (left : Nat) (s : State) : Prop where
  cfg : s.cfg = c
  playing : s.playing = true
  seqIdx : s.seqIdx = i
  seqRem : s.seqRem.toNat = left
  notes : ∀ j : NoteIndex, memReadNotes s j = if j.toNat < scriptLength c then memReadScript c j else 0x000#12
  shows : ShowsCode (noteCode (memReadScript c i)) s

/-- The playback is over: Idle at the sentinel, silent and dark (R170). -/
structure Finished (c : Cfg) (s : State) : Prop where
  playing : s.playing = false
  keyIe : s.keyIe = true
  beatRun : s.beatRun = false
  seqIdx : s.seqIdx.toNat = scriptLength c
  silent : speakerDisabled s = true
  dark : setLeds 0#4 s = s

/-- An accepted `SEQSTART` begins with note 0 and all its ticks (R167). -/
theorem playsNote_seqStart {s : State} (hidle : s.playing = false) (hpos : 0 < scriptLength s.cfg) :
    PlaysNote s.cfg 0#4 (noteDur (memReadScript s.cfg 0#4)).toNat (seqStart s) := by
  have hfirst : isSentinel (memReadScript s.cfg 0#4) = false := not_isSentinel_of_lt s.cfg 0#4 hpos
  rw [seqStart_accepted s hidle hfirst, startPlayback_eq s hfirst]
  exact {
    cfg := by simp
    playing := rfl
    seqIdx := rfl
    seqRem := rfl
    notes := memReadNotes_copyScript s
    shows := (showsCode_set _ s).congr rfl rfl rfl }

section
variable {c : Cfg} {i : NoteIndex} {s : State}

/-- Before the note's last tick a tick only counts down (R169). -/
theorem PlaysNote.tick_countdown {left : Nat} (h : PlaysNote c i (left + 2) s) : PlaysNote c i (left + 1) (tick s) := by
  have hrem := h.seqRem
  rw [Machine.tick_countdown s h.playing (by bv_omega)]
  exact { h with
    seqRem := show (s.seqRem - 1#8).toNat = left + 1 by bv_omega
    shows := h.shows.congr rfl rfl rfl }

theorem PlaysNote.afterTicks_countdown {left : Nat} (n : Nat) (h : PlaysNote c i left s) (hn : n < left) :
    PlaysNote c i (left - n) (afterTicks n s) := by
  induction n with
  | zero => exact h
  | succ n ih =>
    have hbefore := ih (by omega)
    rw [show left - n = left - (n + 1) - 1 + 2 by omega] at hbefore
    rw [afterTicks_succ, show left - (n + 1) = left - (n + 1) - 1 + 1 by omega]
    exact hbefore.tick_countdown

/-- The last tick of a note. -/
theorem PlaysNote.lastTick (h : PlaysNote c i 1 s) : ¬ 2#8 ≤ s.seqRem := by
  have hrem := h.seqRem
  bv_omega

/-- The last tick of a note that another follows goes on to that one (R169). -/
theorem PlaysNote.tick_next (h : PlaysNote c i 1 s) (hnext : (i + 1#4).toNat < scriptLength c) :
    PlaysNote c (i + 1#4) (noteDur (memReadScript c (i + 1#4))).toNat (tick s) := by
  have hentry : memReadNotes s (s.seqIdx + 1#4) = memReadScript c (i + 1#4) := by
    rw [h.notes, h.seqIdx, if_pos hnext]
  have hnote : isSentinel (memReadNotes s (s.seqIdx + 1#4)) = false := by
    rw [hentry]; exact not_isSentinel_of_lt c _ hnext
  rw [tick_next_eq s h.playing h.lastTick hnote, hentry]
  exact {
    cfg := by simp [h.cfg]
    playing := by simp [h.playing]
    seqIdx := congrArg (· + 1#4) h.seqIdx
    seqRem := rfl
    notes := fun j => (memReadNotes_congr (s := s) (by simp) j).trans (h.notes j)
    shows := (showsCode_set _ s).congr rfl rfl rfl }

/-- The last tick of the last note ends the playback at the sentinel (R170). -/
theorem PlaysNote.tick_finish (h : PlaysNote c i 1 s) (hend : (i + 1#4).toNat = scriptLength c) :
    Finished c (tick s) := by
  have hsent : isSentinel (memReadNotes s (s.seqIdx + 1#4)) = true := by
    rw [h.notes, h.seqIdx, if_neg (by omega), isSentinel_zero]
  rw [tick_stop_eq s h.playing h.lastTick hsent]
  exact {
    playing := rfl
    keyIe := rfl
    beatRun := rfl
    seqIdx := by rw [← hend, ← h.seqIdx]
    silent := rfl
    dark := setLeds_eq_self_congr (s := setLeds 0#4 s) (by simp) rfl (setLeds_setLeds 0#4 0#4 s) }

end

/-- A note below the script's length has ticks, so after all of them but one its last tick is next. -/
theorem PlaysNote.afterTicks_last {c : Cfg} {i : NoteIndex} {s : State} (hi : i.toNat < scriptLength c)
    (h : PlaysNote c i (noteDur (memReadScript c i)).toNat s) :
    PlaysNote c i 1 (afterTicks ((noteDur (memReadScript c i)).toNat - 1) s) := by
  have hpos := noteDur_pos (not_isSentinel_of_lt c i hi)
  have hlast := h.afterTicks_countdown ((noteDur (memReadScript c i)).toNat - 1) (by omega)
  rwa [Nat.sub_sub_self hpos] at hlast

/-- All ticks of a note are those before its last one, and the last one. -/
theorem afterTicks_note {c : Cfg} {i : NoteIndex} (hi : i.toNat < scriptLength c) (s : State) :
    afterTicks (ticksBefore c (i.toNat + 1)) s =
      tick (afterTicks ((noteDur (memReadScript c i)).toNat - 1) (afterTicks (ticksBefore c i.toNat) s)) := by
  have hpos := noteDur_pos (not_isSentinel_of_lt c i hi)
  rw [ticksBefore_succ, afterTicks_add, ← afterTicks_succ, Nat.sub_add_cancel hpos]

/-- Note `i` begins after the ticks of the notes before it (R171). -/
theorem playsNote_begins {s : State} (hidle : s.playing = false) (n : Nat) {i : NoteIndex} (hn : i.toNat = n)
    (hi : i.toNat < scriptLength s.cfg) :
    PlaysNote s.cfg i (noteDur (memReadScript s.cfg i)).toNat
      (afterTicks (ticksBefore s.cfg i.toNat) (seqStart s)) := by
  induction n generalizing i with
  | zero =>
    obtain rfl : i = 0#4 := BitVec.eq_of_toNat_eq hn
    exact playsNote_seqStart hidle hi
  | succ n ih =>
    obtain ⟨j, rfl⟩ : ∃ j : NoteIndex, i = j + 1#4 := ⟨i - 1#4, by bv_omega⟩
    have hj : j.toNat = n := by bv_omega
    have hbefore : j.toNat < scriptLength s.cfg := by omega
    rw [hn, ← hj, afterTicks_note hbefore]
    exact ((ih hj hbefore).afterTicks_last hbefore).tick_next hi

/-- Settles O29: note `i` begins after the ticks of those before it and counts down from there; the last tick of the
last note finds the sentinel; at most 15 notes have at most 255 ticks each. -/
theorem playbackLastsTheSumOfTheDurations : Obligations.PlaybackLastsTheSumOfTheDurations := by
  intro s hwf hidle
  obtain ⟨hlen, hpos⟩ := hwf
  refine ⟨?sounds, ?ends, ?bound⟩
  case sounds =>
    intro i n hi hfrom hto
    have hbegins := playsNote_begins hidle i.val (i := BitVec.ofFin i) rfl hi
    have hsucc : ticksBefore s.cfg (i.val + 1) = ticksBefore s.cfg i.val + _ := ticksBefore_succ s.cfg (BitVec.ofFin i)
    have hplays := hbegins.afterTicks_countdown (n - ticksBefore s.cfg i.val) (by omega)
    have htotal : ticksBefore s.cfg (BitVec.ofFin (w := 4) i).toNat + (n - ticksBefore s.cfg i.val) = n :=
      Nat.add_sub_cancel' hfrom
    rw [← afterTicks_add, htotal] at hplays
    refine ⟨hplays.playing, congrArg BitVec.toNat hplays.seqIdx, ?_, hplays.shows.leds, fun _ => hplays.shows.tone⟩
    rw [hplays.seqRem, hsucc]
    omega
  case ends =>
    obtain ⟨i, hi⟩ : ∃ i : NoteIndex, i.toNat + 1 = scriptLength s.cfg :=
      ⟨BitVec.ofNat 4 (scriptLength s.cfg - 1), by simp; omega⟩
    have hlast : i.toNat < scriptLength s.cfg := by omega
    have hfinished : Finished s.cfg (afterTicks (playbackTicks s.cfg) (seqStart s)) := by
      rw [playbackTicks, ← hi, afterTicks_note hlast]
      exact ((playsNote_begins hidle _ rfl hlast).afterTicks_last hlast).tick_finish (by bv_omega)
    exact ⟨hfinished.playing, hfinished.keyIe, hfinished.beatRun, hfinished.seqIdx, hfinished.silent, hfinished.dark⟩
  case bound =>
    have hsum := ticksBefore_le s.cfg (scriptLength s.cfg)
    rw [playbackTicks]
    omega

end Sys2Proof.Machine

/-!
The Frequency Table (40_tone.md R121, R122, R124): the exact counts whose rounding the entries are, and how far apart
they lie.
-/

namespace Sys2Proof.Machine

/-- Rounding to the nearest integer, ties up, over the rationals (R122). -/
theorem roundHalfUp_eq_floor (num : Nat) {den : Nat} (hden : 0 < den) :
    roundHalfUp num den = ⌊(num / den : ℚ) + 1 / 2⌋₊ := by
  have hne : (den : ℚ) ≠ 0 := Nat.cast_ne_zero.mpr (Nat.pos_iff_ne_zero.mp hden)
  have hhalf : (num / den : ℚ) + 1 / 2 = ((2 * num + den : ℕ) : ℚ) / ((2 * den : ℕ) : ℚ) := by
    push_cast
    field_simp
  rw [hhalf, Nat.floor_div_eq_div, roundHalfUp]

/-- `F_CLK / (2 * TONE_PRESCALE * NOTE_HZ[k])`, which R121 rounds. -/
def exactCount (c : Cfg) (k : Fin 13) : ℚ :=
  (c.fClk * (c.noteHz[k]).den : ℕ) / (2 * Config.tonePrescale * (c.noteHz[k]).num : ℕ)

/-- R121 divides by a positive number. -/
theorem exactCount_den_pos {num : Nat} (hnum : 0 < num) : (0 : ℚ) < (2 * Config.tonePrescale * num : ℕ) :=
  Nat.cast_pos.mpr (Nat.mul_pos (by decide) hnum)

theorem memReadFreq_eq_floor {c : Cfg} (hok : FreqOk c) (k : Fin 13) :
    (memReadFreq c k.succ).toNat + 1 = ⌊exactCount c k + 1 / 2⌋₊ := by
  obtain ⟨hnum, _, hentry⟩ := hok k
  rw [hentry, roundHalfUp_eq_floor _ (Nat.mul_pos (by decide) hnum), exactCount]

theorem exactCount_nonneg (c : Cfg) (k : Fin 13) : 0 ≤ exactCount c k := by
  unfold exactCount
  positivity

/-- The exact counts descend by the factor by which the notes ascend. -/
theorem exactCount_descends {c : Cfg} (hok : FreqOk c) (hasc : NotesAscend c) (k : Fin 12) :
    1059 * exactCount c k.succ ≤ 1000 * exactCount c k.castSucc := by
  obtain ⟨hnum, _, _⟩ := hok k.castSucc
  obtain ⟨hnum', _, _⟩ := hok k.succ
  have hstep : 1059 * (c.noteHz[k.castSucc]).num * (c.noteHz[k.succ]).den ≤
      1000 * (c.noteHz[k.succ]).num * (c.noteHz[k.castSucc]).den := hasc k
  rw [exactCount, exactCount, mul_div_assoc', mul_div_assoc', div_le_div_iff₀ (exactCount_den_pos hnum')
    (exactCount_den_pos hnum)]
  norm_cast
  calc _ = 2 * Config.tonePrescale * c.fClk * (1059 * (c.noteHz[k.castSucc]).num * (c.noteHz[k.succ]).den) := by ring
    _ ≤ 2 * Config.tonePrescale * c.fClk * (1000 * (c.noteHz[k.succ]).num * (c.noteHz[k.castSucc]).den) :=
      Nat.mul_le_mul_left _ hstep
    _ = _ := by ring

/-- Where the clock is at least 34 times A4, every exact count is at least 17, A4's being the least. -/
theorem seventeen_le_exactCount {c : Cfg} (hok : FreqOk c) (hasc : NotesAscend c)
    (hclock : 34 * (a4 c).num ≤ c.fClk * (a4 c).den) (k : Fin 13) : 17 ≤ exactCount c k := by
  induction k using Fin.reverseInduction with
  | last =>
    obtain ⟨hnum, _, _⟩ := hok (Fin.last 12)
    rw [exactCount, le_div_iff₀ (exactCount_den_pos hnum)]
    norm_cast
    have : 34 * (c.noteHz[Fin.last 12]).num ≤ c.fClk * (c.noteHz[Fin.last 12]).den := hclock
    simp only [Config.tonePrescale]
    omega
  | cast k ih =>
    have := exactCount_descends hok hasc k
    linarith

/-- Neighbouring exact counts lie more than 1 apart, so they round to different counts (R124). -/
theorem memReadFreq_succ_lt {c : Cfg} (hok : FreqOk c) (hasc : NotesAscend c)
    (hclock : 34 * (a4 c).num ≤ c.fClk * (a4 c).den) (k : Fin 12) :
    (memReadFreq c k.succ.succ).toNat < (memReadFreq c k.castSucc.succ).toNat := by
  have hgap : exactCount c k.succ + 1 / 2 + 1 ≤ exactCount c k.castSucc + 1 / 2 := by
    have hdescends := exactCount_descends hok hasc k
    have hlarge := seventeen_le_exactCount hok hasc hclock k.succ
    linarith
  have hfloor := Nat.floor_le_floor hgap
  rw [Nat.floor_add_one (by have := exactCount_nonneg c k.succ; positivity), ← memReadFreq_eq_floor hok,
    ← memReadFreq_eq_floor hok] at hfloor
  omega

theorem freqDescends_of_ascending_notes {c : Cfg} (hok : FreqOk c) (hasc : NotesAscend c)
    (hclock : 34 * (a4 c).num ≤ c.fClk * (a4 c).den) : FreqDescends c := by
  have hanti : StrictAnti fun k : Fin 13 => (memReadFreq c k.succ).toNat :=
    Fin.strictAnti_iff_succ_lt.mpr (memReadFreq_succ_lt hok hasc hclock)
  intro j k hj hjk
  obtain ⟨j', rfl⟩ := Fin.exists_succ_eq.mpr (show j ≠ 0 by rintro rfl; simp at hj)
  obtain ⟨k', rfl⟩ := Fin.exists_succ_eq.mpr (Fin.ne_zero_of_lt hjk)
  exact hanti (Fin.succ_lt_succ_iff.mp hjk)

/-- Settles O60: 200 kHz is more than 34 times 440 Hz, and no step changes the configuration, whose table this is. -/
theorem frequencyTableDescendsAndIsReadOnly : Obligations.FrequencyTableDescendsAndIsReadOnly := by
  refine ⟨fun c => freqDescends_of_ascending_notes, ?reference, ?readOnly⟩
  case reference =>
    intro c hok hasc ha4 hclk
    refine freqDescends_of_ascending_notes hok hasc ?_
    have hproduct : 200000 * (a4 c).den ≤ c.fClk * (a4 c).den := Nat.mul_le_mul_right _ hclk
    omega
  case readOnly =>
    intro a rest s t ht k
    rw [takeAgentStep_cfg ht]

end Sys2Proof.Machine
